-- ==== Sys2Proof/Word.lean ====
section
/-!
DEFINITION. The widths of the block's data (00_scope.md R7, R9; 10_state.md R21; 30_encoding.md R71).
-/

namespace Sys2Proof

/-- A 32-bit register value, the unit every transaction moves (R8, R21, R54). -/
abbrev Word := BitVec 32

/-- A raw frame byte, and a CRC-8 remainder (R7, R34, R160). -/
abbrev Byte := BitVec 8

/-- A coefficient, u16 (R7, R30). -/
abbrev Coef := BitVec 16

/-- A raw ADC count, u24 (R7, R33). -/
abbrev Count := BitVec 24

/-- The coefficient table C[0..6] (R15, R30). -/
abbrev CoefTable := Vector Coef 7

/-- The raw frame, bytes 0..5 (R15, R34). -/
abbrev Frame := Vector Byte 6

/-- A word index into the register window, 0..63 (R24, R50). -/
abbrev RegIndex := BitVec 6

/-- A transaction record, 40 bits (R71). -/
abbrev Record := BitVec 40

end Sys2Proof
end

