-- ==== Sys2Proof/Config.lean ====
section
/-!
DEFINITION. What the spec fixes as parameters, and the two it leaves open that a model takes as given
(00_scope.md R2, R7, R8). `BUS_BINDING`, the third open parameter, carries transactions and reset to the block; it is
the list `pending` of `Machine.State` (notes/assumptions 1 and 7).
-/

namespace Sys2Proof.Config

/-- The version of the command set (R2). -/
def commandSetVersion : Nat := 1

/-- The register window holds 64 words (R8, R24, R50). -/
def windowWords : Nat := 64

/-- The window covers 256 bytes of the host's address space (R51). -/
def windowBytes : Nat := 4 * windowWords

/-- FREE VALUE (R8, R51, 92_eei_decisions.md D3; notes/assumptions/6.md): BLOCK_BASE divided by 256. -/
opaque blockBasePage : Nat

/-- `BLOCK_BASE`, an open byte address of which the spec says only that it is a multiple of 256 (R51). -/
def blockBase : Nat := windowBytes * blockBasePage

/-- FREE VALUE (R8, R151, 92_eei_decisions.md D21; notes/assumptions/8.md): `ALT_FN`, the binary32 evaluation of the
altitude formula, wherever property AF1 does not settle it. Its arguments are the pressure and the baseline. -/
opaque altFnOpen : Word → Word → Word

end Sys2Proof.Config
end

