-- ==== Sys2Proof/Syntax.lean ====
section
/-!
DEFINITION. The block's "instruction set", the host's bus transactions and commands (00_scope.md R2; 30_encoding.md
R75), and the names of its registers (10_state.md R24).
-/

namespace Sys2Proof

/-- One constructor per row of the opcode map (R75, spec/opcode_table.json). -/
inductive Instr where
  /-- REG_READ (R90): `a` is the word index. `d` is the record's D field, which the block ignores (R71, X13); the
  constructor keeps it so that a decoded record loses no bit (notes/assumptions/9.md). -/
  | regRead (a : RegIndex) (d : Word)
  /-- REG_WRITE (R92): `a` is the word index, 1..63 in a decoded record (R76); `d` is the data. -/
  | regWrite (a : RegIndex) (d : Word)
  /-- CAL_VALIDATE (R103). -/
  | calValidate
  /-- PT_CONVERT (R135). -/
  | ptConvert
  /-- HT_DECODE (R175). -/
  | htDecode
  /-- ALT_COMPUTE (R153). -/
  | altCompute
  /-- ILLEGAL_CMD (R94): `d` is the command word, none of 1..4 in a decoded record (R72). -/
  | illegalCmd (d : Word)
  deriving DecidableEq, Repr

/-- The named registers of the window (R24's table). Indices that no name has are reserved. -/
inductive RegName where
  | cmd
  | status
  | crc
  | coef (i : Fin 7)
  | d1
  | d2
  | frame (k : Fin 6)
  | baseline
  | tempI
  | presI
  | tempF
  | presF
  | htTempN
  | htHumN
  | htTempF
  | htHumF
  | altF
  deriving DecidableEq, Repr

/-- The access codes of R24. -/
inductive Access where
  /-- RW: read and write. -/
  | rw
  /-- RO: read only, writes ignored. -/
  | ro
  /-- WO: write only, reads return 0. -/
  | wo
  /-- RW/L: read and write while the coefficient store is unlocked (R105). -/
  | rwLock
  deriving DecidableEq, Repr

end Sys2Proof
end

