-- ==== Sys2Proof/WellFormed.lean ====
section
/-!
DEFINITION. Which terms of `Instr` are spelled by a transaction record (30_encoding.md R75, R76).
-/

namespace Sys2Proof

/-- Does the command word select one of the four commands (R72)? -/
def selectsCommand (d : Word) : Bool :=
  d == 1 || d == 2 || d == 3 || d == 4

/-- A REG_WRITE names an index other than 0, since A = 0 is taken by the command rows, and an ILLEGAL_CMD carries a word
that selects no command (R75). Every other term is well formed. -/
def Instr.wf : Instr → Bool
  | .regRead _ _ => true
  | .regWrite a _ => a != 0
  | .calValidate => true
  | .ptConvert => true
  | .htDecode => true
  | .altCompute => true
  | .illegalCmd d => !selectsCommand d

end Sys2Proof
end

