-- ==== Sys2Proof/Decode.lean ====
section
/-!
DEFINITION. Decoding a 40-bit transaction record (30_encoding.md R71, R72, R76, R77) and encoding an instruction (R75,
R81).
-/

namespace Sys2Proof

/-- Why a record has no meaning. -/
inductive DecodeError where
  /-- OP = 01 or OP = 11: the record is reserved and spells no transaction (R77 item 1). -/
  | reservedOp (op : BitVec 2)
  deriving DecidableEq, Repr

/-- OP, bits 39:38 (R71). -/
def opField (r : Record) : BitVec 2 := r.extractLsb' 38 2

/-- A, bits 37:32 (R71). -/
def aField (r : Record) : RegIndex := r.extractLsb' 32 6

/-- D, bits 31:0 (R71). -/
def dField (r : Record) : Word := r.extractLsb' 0 32

/-- The command a command word selects: the whole 32-bit value decides (R72). -/
def decodeCommand (d : Word) : Instr :=
  if d = 0x00000001 then .calValidate
  else if d = 0x00000002 then .ptConvert
  else if d = 0x00000003 then .htDecode
  else if d = 0x00000004 then .altCompute
  else .illegalCmd d

/-- R76, in its order: total on every 40-bit record, and rejecting the reserved ones by name (R77). -/
def decode (r : Record) : Except DecodeError Instr :=
  if opField r = 0b00 then .ok (.regRead (aField r) (dField r))
  else if opField r = 0b10 then
    if aField r = 0 then .ok (decodeCommand (dField r)) else .ok (.regWrite (aField r) (dField r))
  else .error (.reservedOp (opField r))

/-- A record from its three fields, OP in the most significant place (R71). -/
def mkRecord (op : BitVec 2) (a : RegIndex) (d : Word) : Record := op ++ a ++ d

/-- The record of an instruction (R75, R81). -/
def encode : Instr → Record
  | .regRead a d => mkRecord 0b00 a d
  | .regWrite a d => mkRecord 0b10 a d
  | .calValidate => mkRecord 0b10 0 0x00000001
  | .ptConvert => mkRecord 0b10 0 0x00000002
  | .htDecode => mkRecord 0b10 0 0x00000003
  | .altCompute => mkRecord 0b10 0 0x00000004
  | .illegalCmd d => mkRecord 0b10 0 d

/-- The record that a number of the opcode table stands for: bit 0 of the number is bit 0 of the record, and a table row
has 40 bits. A record is one 40-bit unit and not a run of bytes (R70, R78), so no byte order enters
(notes/assumptions/10.md). -/
def recordOfTableWord (nbits w : Nat) : Record := BitVec.ofNat 40 (w % 2 ^ nbits)

/-- The instruction the decoder reads from a number of the opcode table. -/
def decodeTableWord (nbits w : Nat) : Option Instr :=
  match decode (recordOfTableWord nbits w) with
  | .ok i => some i
  | .error _ => none

end Sys2Proof
end

