-- ==== Sys2Proof/Machine/State.lean ====
section
/-!
DEFINITION. The state of the block (10_state.md R23, R44), what the host has still to deliver to it, and the names of
the ways a step can stop.
-/

namespace Sys2Proof.Machine

/-- The block's whole state, component by component as R23 gives it ("Nothing else is state"). An s32 component is held
as its 32-bit two's-complement pattern (R25), a binary32 component as its bit pattern. -/
structure Block where
  /-- C[0..6] (R30). -/
  coef : CoefTable
  /-- The raw pressure count (R33). -/
  d1 : Count
  /-- The raw temperature count (R33). -/
  d2 : Count
  /-- The raw frame (R34, R35). -/
  frame : Frame
  /-- The baseline pressure, binary32 (R36). -/
  baseline : Word
  /-- STATUS[0]: the table passed its checksum and is locked (R27). -/
  calValid : Bool
  /-- STATUS[1] (R27). -/
  ptValid : Bool
  /-- STATUS[2] (R27). -/
  htValid : Bool
  /-- STATUS[3] (R27). -/
  altValid : Bool
  /-- STATUS[4] (R27). -/
  tCrcOk : Bool
  /-- STATUS[5] (R27). -/
  hCrcOk : Bool
  /-- STATUS[6], sticky: a host write reached a locked COEFn (R27, R105). -/
  wlock : Bool
  /-- STATUS[11:8], the outcome code of the last command (R200). -/
  err : BitVec 4
  /-- CRC[3:0] (R29). -/
  crc4Calc : BitVec 4
  /-- CRC[7:4] (R29). -/
  crc4Stored : BitVec 4
  /-- CRC[15:8] (R29). -/
  crc8T : Byte
  /-- CRC[23:16] (R29). -/
  crc8H : Byte
  /-- TEMP, s32, hundredths of a degree (R37). -/
  tempI : Word
  /-- P, s32, hundredths of hPa (R37). -/
  presI : Word
  /-- Temperature in °C, binary32 (R38). -/
  tempF : Word
  /-- Pressure in hPa, binary32 (R38). -/
  presF : Word
  /-- The exact temperature numerator over 65535, s32 (R39). -/
  htTempN : Word
  /-- The exact clamped humidity numerator over 65535, s32 (R39). -/
  htHumN : Word
  /-- Decoder temperature in °C, binary32 (R40). -/
  htTempF : Word
  /-- Decoder humidity in %RH, binary32 (R40). -/
  htHumF : Word
  /-- Altitude in metres, binary32 (R41). -/
  altF : Word
  deriving DecidableEq, Repr

/-- Every component is 0 after reset, and no value is left unspecified (R44, R230, R232). -/
def Block.reset : Block where
  coef := #v[0, 0, 0, 0, 0, 0, 0]
  d1 := 0
  d2 := 0
  frame := #v[0, 0, 0, 0, 0, 0]
  baseline := 0
  calValid := false
  ptValid := false
  htValid := false
  altValid := false
  tCrcOk := false
  hCrcOk := false
  wlock := false
  err := 0
  crc4Calc := 0
  crc4Stored := 0
  crc8T := 0
  crc8H := 0
  tempI := 0
  presI := 0
  tempF := 0
  presF := 0
  htTempN := 0
  htHumN := 0
  htTempF := 0
  htHumF := 0
  altF := 0

/-- What the host platform delivers to the block (`BUS_BINDING`, R8, R230; notes/assumptions/1.md). -/
inductive HostEvent where
  /-- One bus transaction, written as its record (R71). -/
  | record (r : Record)
  /-- A read access of `size` bytes at a byte address of the host's space (R51, R54). -/
  | busRead (addr size : Nat)
  /-- A write access of `size` bytes at a byte address of the host's space (R51, R54). -/
  | busWrite (addr size : Nat) (data : Word)
  /-- The reset event; power-on is one (R230). -/
  | reset
  deriving DecidableEq, Repr

/-- The machine: the block, and the two fields of the model's own that join it to its host. -/
structure State where
  /-- R23's record. -/
  block : Block
  /-- What the host platform has still to deliver, in issue order (R55). The block fetches nothing (R22), so this list
  is all that sequences it (notes/assumptions/1.md). -/
  pending : List HostEvent
  /-- What the last performed transaction returned to the host: `some v` for a REG_READ (R90), `none` for any other
  (notes/assumptions/2.md). -/
  response : Option Word
  deriving DecidableEq, Repr

/-- The machine right after reset: R44's record, nothing delivered yet, nothing returned yet. -/
def State.reset : State where
  block := Block.reset
  pending := []
  response := none

/-- Why the machine is stuck. -/
inductive Fault where
  /-- Raised by the delivery of a host access to the window that is misaligned or not 4 bytes wide: it is not admitted,
  and "a model gives it no step (stuck)" (R54, X6). Safe: nothing is claimed of what follows. -/
  | inadmissibleAccess (addr size : Nat)
  deriving DecidableEq, Repr

/-- Why an event has no meaning in this model. -/
inductive Refusal where
  /-- Raised by an arm of `exec` whose instruction has no meaning yet; no arm raises it. Safe. -/
  | notModelled (mnemonic : String)
  /-- Raised by the delivery of a record with OP = 01 or 11: it is reserved, and "a model refuses the record" (R77, X7).
  Safe. -/
  | reservedRecord (op : BitVec 2)
  /-- Raised by the delivery of a host access outside the block's window: "The rest of the host's address space belongs
  to the platform; this spec says nothing of it" (R57; notes/assumptions/5.md). Safe. -/
  | outsideWindow (addr : Nat)
  deriving DecidableEq, Repr

end Sys2Proof.Machine
end

