-- ==== Sys2Proof/Machine/Operands.lean ====
section
/-!
DEFINITION. Operand forms: the register map (10_state.md R24), the bits of D a register keeps (30_encoding.md R74), the
fields of a coefficient (R31), and the values commands assemble from registers (41_calibration.md R101, 44_humidity.md
R165).
-/

namespace Sys2Proof

/-- The register at a word index, or none where the index is reserved (R24's table). -/
def RegName.ofIndex (a : RegIndex) : Option RegName :=
  match a.toNat with
  | 0 => some .cmd
  | 1 => some .status
  | 2 => some .crc
  | 4 => some (.coef 0)
  | 5 => some (.coef 1)
  | 6 => some (.coef 2)
  | 7 => some (.coef 3)
  | 8 => some (.coef 4)
  | 9 => some (.coef 5)
  | 10 => some (.coef 6)
  | 12 => some .d1
  | 13 => some .d2
  | 14 => some (.frame 0)
  | 15 => some (.frame 1)
  | 16 => some (.frame 2)
  | 17 => some (.frame 3)
  | 18 => some (.frame 4)
  | 19 => some (.frame 5)
  | 20 => some .baseline
  | 24 => some .tempI
  | 25 => some .presI
  | 26 => some .tempF
  | 27 => some .presF
  | 28 => some .htTempN
  | 29 => some .htHumN
  | 30 => some .htTempF
  | 31 => some .htHumF
  | 32 => some .altF
  | _ => none

/-- The word index of a register (R24's table). -/
def RegName.index : RegName → RegIndex
  | .cmd => 0
  | .status => 1
  | .crc => 2
  | .coef i => BitVec.ofNat 6 (4 + i.val)
  | .d1 => 12
  | .d2 => 13
  | .frame k => BitVec.ofNat 6 (14 + k.val)
  | .baseline => 20
  | .tempI => 24
  | .presI => 25
  | .tempF => 26
  | .presF => 27
  | .htTempN => 28
  | .htHumN => 29
  | .htTempF => 30
  | .htHumF => 31
  | .altF => 32

/-- The byte offset of a word index from `BLOCK_BASE` (R24, R51). -/
def byteOffset (a : RegIndex) : Nat := 4 * a.toNat

/-- R24's access column. -/
def RegName.access : RegName → Access
  | .cmd => .wo
  | .status => .ro
  | .crc => .ro
  | .coef _ => .rwLock
  | .d1 => .rw
  | .d2 => .rw
  | .frame _ => .rw
  | .baseline => .rw
  | .tempI => .ro
  | .presI => .ro
  | .tempF => .ro
  | .presF => .ro
  | .htTempN => .ro
  | .htHumN => .ro
  | .htTempF => .ro
  | .htHumF => .ro
  | .altF => .ro

namespace Machine

/-- D[15:0], what COEFn keeps of a written word (R74). -/
def keptCoef (d : Word) : Coef := d.extractLsb' 0 16

/-- D[23:0], what D1 and D2 keep of a written word (R33, R74). -/
def keptCount (d : Word) : Count := d.extractLsb' 0 24

/-- D[7:0], what FRAMEk keeps of a written word (R34, R74). -/
def keptByte (d : Word) : Byte := d.extractLsb' 0 8

/-- The stored checksum, C[0][15:12] (R31). -/
def storedChecksum (C : CoefTable) : BitVec 4 := C[0].extractLsb' 12 4

/-- The high and then the low byte of a 16-bit entry (R52 item 2). -/
def bytesOf (w : Coef) : List Byte := [w.extractLsb' 8 8, w.extractLsb' 0 8]

/-- The eight entries n[0..7] the CRC-4 covers: C[0] with its checksum nibble masked out, C[1]..C[6], and the cleared
padding slot (R100). -/
def crc4Entries (C : CoefTable) : List Coef :=
  [C[0] &&& 0x0FFF, C[1], C[2], C[3], C[4], C[5], C[6], 0x0000]

/-- The 16 bytes of the CRC-4 stream, each entry's high byte first (R101). -/
def crc4Stream (C : CoefTable) : List Byte := (crc4Entries C).flatMap bytesOf

/-- A big-endian 16-bit value from two frame bytes (R52 item 1, R165). -/
def bigEndian16 (hi lo : Byte) : Nat := hi.toNat * 256 + lo.toNat

/-- raw_temp = frame[0] × 256 + frame[1] (R165). -/
def rawTemp (f : Frame) : Nat := bigEndian16 f[0] f[1]

/-- raw_hum = frame[3] × 256 + frame[4] (R165). -/
def rawHum (f : Frame) : Nat := bigEndian16 f[3] f[4]

end Machine

end Sys2Proof
end

