-- ==== Sys2Proof/Machine/Flags.lean ====
section
/-!
DEFINITION. The flags and codes of STATUS and CRC (10_state.md R27, R29; 60_exceptions.md R200): how they read as words.
What sets and clears a flag stands in the rule of its command.
-/

namespace Sys2Proof.Machine

/-- The outcomes of a command (R200's names). -/
inductive CmdOutcome where
  | ok
  | calibrationError
  | calibrationInvalid
  | frameChecksumError
  | baselineInvalid
  | noPressure
  | illegalCommand
  deriving DecidableEq, Repr

/-- The code that STATUS.ERR holds for an outcome (R200). -/
def errCode : CmdOutcome → BitVec 4
  | .ok => 0
  | .calibrationError => 1
  | .calibrationInvalid => 2
  | .frameChecksumError => 3
  | .baselineInvalid => 4
  | .noPressure => 5
  | .illegalCommand => 6

/-- STATUS as it reads (R27, R91): ERR in bits 11:8, bit 7 zero, the seven flags below it. -/
def statusWord (b : Block) : Word :=
  0#20 ++ b.err ++ 0#1 ++ BitVec.ofBool b.wlock ++ BitVec.ofBool b.hCrcOk ++ BitVec.ofBool b.tCrcOk
    ++ BitVec.ofBool b.altValid ++ BitVec.ofBool b.htValid ++ BitVec.ofBool b.ptValid ++ BitVec.ofBool b.calValid

/-- CRC as it reads (R29, R91). -/
def crcWord (b : Block) : Word := 0#8 ++ b.crc8H ++ b.crc8T ++ b.crc4Stored ++ b.crc4Calc

end Sys2Proof.Machine
end

