-- ==== Sys2Proof/Machine/Ops.lean ====
section
/-!
DEFINITION. The named operations over the block's registers and over the machine: ending a command (00_scope.md R12,
60_exceptions.md R200), reading a register (40_register_access.md R91), writing a coefficient (41_calibration.md R105),
returning a value to the host, and the reset event (70_reset_and_hazards.md R230).
-/

namespace Sys2Proof.Machine

/-- `raise E` (R12): the running command ends with `E`'s code in STATUS.ERR. This is all there is of taking an exception:
it "saves no state, changes no mode, masks nothing and transfers control nowhere" (R208), and there is no return from it
(R209). What else the raising rule writes stands before the raise, in that rule. -/
def Block.raise (e : CmdOutcome) (b : Block) : Block := { b with err := errCode e }

/-- The end of a successful command: ERR <- 0 (R200, R206). -/
def Block.succeed (b : Block) : Block := { b with err := errCode .ok }

/-- What a register reads as (R91). CMD reads as 0 (R26). -/
def readReg (b : Block) : RegName → Word
  | .cmd => 0
  | .status => statusWord b
  | .crc => crcWord b
  | .coef i => (b.coef[i]).setWidth 32
  | .d1 => b.d1.setWidth 32
  | .d2 => b.d2.setWidth 32
  | .frame k => (b.frame[k]).setWidth 32
  | .baseline => b.baseline
  | .tempI => b.tempI
  | .presI => b.presI
  | .tempF => b.tempF
  | .presF => b.presF
  | .htTempN => b.htTempN
  | .htHumN => b.htHumN
  | .htTempF => b.htTempF
  | .htHumF => b.htHumF
  | .altF => b.altF

/-- `read_value(a)` (R91): a reserved index reads as 0 (R24, R25, X9). -/
def readValue (b : Block) (a : RegIndex) : Word :=
  match RegName.ofIndex a with
  | some r => readReg b r
  | none => 0

/-- `coef_write(i, d)` (R105): a locked table is unchanged and WLOCK is set; an unlocked one takes D[15:0]. ERR is left
alone (R205). -/
def coefWrite (b : Block) (i : Fin 7) (d : Word) : Block :=
  if b.calValid then { b with wlock := true } else { b with coef := b.coef.set i (keptCoef d) }

/-- Replace the block and leave the model's own fields as they are. -/
def State.withBlock (s : State) (b : Block) : State := { s with block := b }

/-- Return a value to the host (R90). -/
def State.respond (s : State) (v : Word) : State := { s with response := some v }

/-- Take the head event off the list of what is still to be delivered; until it returns a value it has returned none. -/
def State.accept (s : State) (rest : List HostEvent) : State := { s with pending := rest, response := none }

/-- The reset event (R230): every component of R23's record takes the value R44 gives it. What the host has still to
deliver is not the block's and stays (notes/assumptions/15.md). -/
def State.takeReset (s : State) : State := { s with block := Block.reset }

end Sys2Proof.Machine
end

