-- ==== Sys2Proof/Machine/Bus.lean ====
section
/-!
DEFINITION. What a delivered host event is to the block (20_memory.md R51, R54, R57; 30_encoding.md R71, R77;
70_reset_and_hazards.md R230).
-/

namespace Sys2Proof.Machine

/-- What is left of an event once the block's port has read it. -/
inductive Delivery where
  /-- A transaction, decoded. -/
  | transaction (i : Instr)
  /-- The reset event. -/
  | reset
  /-- No step exists (stuck). -/
  | stuck (f : Fault)
  /-- The event has no meaning. -/
  | refuse (r : Refusal)
  deriving DecidableEq, Repr

/-- A transaction record, decoded; a reserved record is refused (R76, R77). -/
def deliverRecord (r : Record) : Delivery :=
  match decode r with
  | .ok i => .transaction i
  | .error (.reservedOp op) => .refuse (.reservedRecord op)

/-- Is a byte address of the host's space one of the window's 256 (R51)? -/
def inWindow (addr : Nat) : Bool :=
  Config.blockBase ≤ addr && addr < Config.blockBase + Config.windowBytes

/-- Is an access admitted: aligned and exactly 4 bytes (R54)? -/
def admitted (addr size : Nat) : Bool := addr % 4 == 0 && size == 4

/-- The word index of a byte address of the window: word i is at `BLOCK_BASE + 4 × i` (R51). -/
def wordIndex (addr : Nat) : RegIndex := BitVec.ofNat 6 ((addr - Config.blockBase) / 4)

/-- A byte-addressed access to the host's space, which is the record `r` of its word index where it is admitted (R54). An
access outside the window is not the block's (R57), and that is decided first (notes/assumptions/5.md). -/
def deliverAccess (addr size : Nat) (r : RegIndex → Record) : Delivery :=
  if !inWindow addr then .refuse (.outsideWindow addr)
  else if !admitted addr size then .stuck (.inadmissibleAccess addr size)
  else deliverRecord (r (wordIndex addr))

/-- What each kind of event is to the block. A read access carries no data, so its record's D field is 0 (R81). -/
def deliver : HostEvent → Delivery
  | .record r => deliverRecord r
  | .busRead addr size => deliverAccess addr size (fun a => mkRecord 0b00 a 0)
  | .busWrite addr size data => deliverAccess addr size (fun a => mkRecord 0b10 a data)
  | .reset => .reset

/-- `MemRead(a, 4)` at the register of a word index (R12): the host's read at its byte offset of the window. -/
def memRead (a : RegIndex) : HostEvent := .busRead (Config.blockBase + byteOffset a) 4

/-- `MemWrite(a, 4, v)` at the register of a word index (R12): the host's write at its byte offset of the window. -/
def memWrite (a : RegIndex) (v : Word) : HostEvent := .busWrite (Config.blockBase + byteOffset a) 4 v

/-- `s` with a record placed as the next event to be delivered. -/
def placeNext (s : State) (r : Record) : State := { s with pending := .record r :: s.pending }

end Sys2Proof.Machine
end

