-- ==== Sys2Proof/Machine/Binary32.lean ====
section
/-!
DEFINITION. IEEE 754 binary32 as the block uses it (00_scope.md R13): the fields of a pattern, its value, and the
rounding of an exact quotient to nearest with ties to even. The layout is the one R13 states from general knowledge
(93_implementation_defined.md G1).
-/

namespace Sys2Proof.Machine

/-- The biased exponent, bits 30:23 (R13). -/
def expField (b : Word) : BitVec 8 := b.extractLsb' 23 8

/-- The fraction, bits 22:0 (R13). -/
def fracField (b : Word) : BitVec 23 := b.extractLsb' 0 23

/-- A finite pattern: neither an infinity nor a NaN (R152). -/
def isFinite32 (b : Word) : Bool := expField b != 0xFF

/-- A finite pattern's significand as a whole number of units of the pattern's last place: the fraction, with the
implicit bit unless the biased exponent is 0. -/
def significand (b : Word) : Nat :=
  if expField b = 0 then (fracField b).toNat else 2 ^ 23 + (fracField b).toNat

/-- `val32(b)` (R13): the real value of a finite pattern, and none for an infinity or a NaN (notes/assumptions/14.md).
The unit of the last place is 2^(max(exponent, 1) − 150). -/
def val32 (b : Word) : Option ℚ :=
  if isFinite32 b then
    let magnitude : ℚ := (significand b * 2 ^ (max (expField b).toNat 1) : Nat) / (2 ^ 150 : Nat)
    some (if b.msb then -magnitude else magnitude)
  else none

/-- `a / b` rounded to the nearest whole number, ties to the even one. -/
def roundDivEven (a b : Nat) : Nat :=
  let q := a / b
  let r := a % b
  if 2 * r < b then q else if b < 2 * r then q + 1 else q + q % 2

/-- The exponent of the power of two just at or below `n / d`, for `n` and `d` not 0. -/
def floorLog2 (n d : Nat) : Int :=
  let k : Int := (n.log2 : Int) - (d.log2 : Int)
  if d * 2 ^ k.toNat ≤ n * 2 ^ (-k).toNat then k else k - 1

/-- The exponent and fraction bits of the binary32 value nearest `n / d`, ties to even. The exponent does not go below
−126 (subnormals), and what rounds past the largest finite value is the infinity pattern; the block reaches neither
(R13, notes/assumptions/13.md). -/
def f32Magnitude (n d : Nat) : Nat :=
  if n = 0 then 0
  else
    let e := max (floorLog2 n d) (-126)
    let scale := 23 - e
    let m := roundDivEven (n * 2 ^ scale.toNat) (d * 2 ^ (-scale).toNat)
    min ((e + 126).toNat * 2 ^ 23 + m) 0x7F800000

/-- `bits32(f32(n / d))` (R13): the pattern of the binary32 value nearest the rational `n / d`, ties to the even
significand. Exact zero gives +0.0. -/
def f32 (n : Int) (d : Nat) : Word :=
  BitVec.ofBool (decide (n < 0)) ++ BitVec.ofNat 31 (f32Magnitude n.natAbs d)

/-- An admissible baseline (R152): sign bit 0, exponent not 0xFF, and bits 30:0 not all 0. -/
def admissible (b : Word) : Bool := !b.msb && isFinite32 b && b.extractLsb' 0 31 != 0

end Sys2Proof.Machine
end

