-- ==== Sys2Proof/Machine/Altitude.lean ====
section
/-!
DEFINITION. ALT_COMPUTE: the open altitude function and the command (43_altitude.md R151 to R153).
-/

namespace Sys2Proof.Machine

/-- `ALT_FN` (R151): the open parameter of which a model assumes exactly AF1, that ALT_FN(b, b) = +0.0 for every finite b
whose value is not 0. Every total function with AF1 is of this form for some value of `Config.altFnOpen`. -/
def altFn (p b : Word) : Word :=
  if p = b ∧ isFinite32 b ∧ b.extractLsb' 0 31 ≠ 0 then 0x00000000 else Config.altFnOpen p b

/-- ALT_COMPUTE on the block (R153): PT_VALID is tested before BASELINE (R205). -/
def altCompute (b : Block) : Block :=
  if !b.ptValid then Block.raise .noPressure { b with altValid := false }
  else if !admissible b.baseline then Block.raise .baselineInvalid { b with altValid := false }
  else Block.succeed { b with altF := altFn b.presF b.baseline, altValid := true }

/-- ALT_COMPUTE (R153). -/
def execAltCompute (s : State) : Host.Outcome State Fault Refusal := .next (s.withBlock (altCompute s.block))

end Sys2Proof.Machine
end

