-- ==== Sys2Proof/Machine/Checksum.lean ====
section
/-!
DEFINITION. The two checksums: the 4-bit CRC of the coefficient table (41_calibration.md R100 to R102) and the 8-bit CRC
of the frame (44_humidity.md R160 to R162).
-/

namespace Sys2Proof.Machine

/-- One shift-and-conditional-XOR step: the top bit is tested, the remainder is shifted left by one, and the polynomial
pattern is XORed in if the tested bit was 1 (R100, R160). -/
def crcBit {w : Nat} (poly rem : BitVec w) : BitVec w :=
  if rem.msb then (rem <<< 1) ^^^ poly else rem <<< 1

/-- The eight steps of one stream entry (R100, R160). -/
def crcShift8 {w : Nat} (poly rem : BitVec w) : BitVec w := Nat.repeat (crcBit poly) 8 rem

/-- One entry of the stream: XOR the byte in, then eight steps (R100, R160). -/
def crcByte {w : Nat} (poly rem : BitVec w) (byte : Byte) : BitVec w :=
  crcShift8 poly (rem ^^^ byte.setWidth w)

/-- The CRC-4's 16-bit remainder after a stream of bytes: it starts at 0x0000 (R100). -/
def crc4Remainder (bytes : List Byte) : BitVec 16 := bytes.foldl (crcByte 0x3000#16) 0x0000#16

/-- `crc4(C)`: the top 4 bits of the final remainder, with no final XOR (R100). -/
def crc4 (C : CoefTable) : BitVec 4 := (crc4Remainder (crc4Stream C)).extractLsb' 12 4

/-- A table is valid exactly when its CRC-4 equals its stored checksum nibble (R102). -/
def tableValid (C : CoefTable) : Bool := crc4 C == storedChecksum C

/-- `crc8(s)`: polynomial 0x31, initial remainder 0xFF, no final XOR (R160). -/
def crc8 (bytes : List Byte) : Byte := bytes.foldl (crcByte 0x31#8) 0xFF#8

/-- The CRC-8 of frame bytes 0..1 (R162). -/
def crc8Temp (f : Frame) : Byte := crc8 [f[0], f[1]]

/-- The CRC-8 of frame bytes 3..4 (R162). -/
def crc8Hum (f : Frame) : Byte := crc8 [f[3], f[4]]

end Sys2Proof.Machine
end

