-- ==== Sys2Proof/Machine/Calibration.lean ====
section
/-!
DEFINITION. CAL_VALIDATE: the coefficient validation command (41_calibration.md R103).
-/

namespace Sys2Proof.Machine

/-- CAL_VALIDATE on the block (R103): both checksums become observable, and a match locks the table (R105). -/
def calValidate (b : Block) : Block :=
  let seen := { b with crc4Calc := crc4 b.coef, crc4Stored := storedChecksum b.coef }
  if tableValid b.coef then Block.succeed { seen with calValid := true }
  else Block.raise .calibrationError { seen with calValid := false }

/-- CAL_VALIDATE (R103). -/
def execCalValidate (s : State) : Host.Outcome State Fault Refusal := .next (s.withBlock (calValidate s.block))

end Sys2Proof.Machine
end

