-- ==== Sys2Proof/Machine/Compensation.lean ====
section
/-!
DEFINITION. PT_CONVERT: the compensation polynomial with its low-temperature branches (42_compensation.md R120 to R131)
and the command (R135).
-/

namespace Sys2Proof.Machine

/-- Integer division truncated toward zero (R11): every `/` of the compensation (R121, R125). -/
def tdiv (a b : Int) : Int := a.tdiv b

/-- The arithmetic right shift: floor of a / 2^k (R11, R125). -/
def asr (a : Int) (k : Nat) : Int := a >>> k

/-- The named intermediates of the compensation (R15, R120). They exist only within one command (R43). -/
structure CompTerms where
  /-- dT. -/
  dT : Int
  /-- First-order TEMP, before `TEMP −= T2` (R123). -/
  temp1 : Int
  /-- First-order OFF. -/
  off1 : Int
  /-- First-order SENS. -/
  sens1 : Int
  /-- T2, 0 where the first branch is not taken. -/
  t2 : Int
  /-- OFF2 after both branches, 0 where neither is taken. -/
  off2 : Int
  /-- SENS2 after both branches, 0 where neither is taken. -/
  sens2 : Int
  /-- Final TEMP. -/
  temp : Int
  /-- Final OFF. -/
  off : Int
  /-- Final SENS. -/
  sens : Int
  /-- P. -/
  p : Int
  deriving DecidableEq, Repr

/-- The second-order corrections (T2, OFF2, SENS2) from dT and the first-order TEMP (R121): the first branch below 2000,
and inside it the second below −1500, which adds to what the first computed (R123, R124). -/
def corrections (dT temp1 : Int) : Int × Int × Int :=
  if temp1 < 2000 then
    let t2 := asr (dT * dT) 31
    let off2 := tdiv (5 * (temp1 - 2000) ^ 2) 2
    let sens2 := tdiv (5 * (temp1 - 2000) ^ 2) 4
    if temp1 < -1500 then
      (t2, off2 + 7 * (temp1 + 1500) ^ 2, sens2 + tdiv (11 * (temp1 + 1500) ^ 2) 2)
    else (t2, off2, sens2)
  else (0, 0, 0)

/-- R121 with every named intermediate kept. It is evaluated over the integers, which R9 and R131 give as the same as
evaluation in the declared widths. -/
def compTerms (C : CoefTable) (d1 d2 : Count) : CompTerms :=
  let dT : Int := d2.toNat - C[5].toNat * 2 ^ 8
  let temp1 := 2000 + tdiv (dT * C[6].toNat) (2 ^ 23)
  let off1 := C[2].toNat * 2 ^ 17 + tdiv (C[4].toNat * dT) (2 ^ 6)
  let sens1 := C[1].toNat * 2 ^ 16 + tdiv (C[3].toNat * dT) (2 ^ 7)
  let corr := corrections dT temp1
  let temp := temp1 - corr.1
  let off := off1 - corr.2.1
  let sens := sens1 - corr.2.2
  let p := asr (asr (d1.toNat * sens) 21 - off) 15
  { dT := dT, temp1 := temp1, off1 := off1, sens1 := sens1, t2 := corr.1, off2 := corr.2.1, sens2 := corr.2.2,
    temp := temp, off := off, sens := sens, p := p }

/-- `compensate(C, D1, D2)`, the pair (TEMP, P) (R121). -/
def compensate (C : CoefTable) (d1 d2 : Count) : Int × Int :=
  ((compTerms C d1 d2).temp, (compTerms C d1 d2).p)

/-- The same polynomial in DOC's declared widths (R7, R120): dT and TEMP are 32-bit signed, every other intermediate is
64-bit signed, `/` truncates toward zero and `>>` is arithmetic. It is no part of PT_CONVERT: claims compare it with
`compensate` (R9, R131; notes/assumptions/17.md says where a width changes). -/
def compensateDeclared (C : CoefTable) (d1 d2 : Count) : BitVec 32 × BitVec 64 :=
  let c64 (w : Coef) : BitVec 64 := w.setWidth 64
  let dT : BitVec 32 := d2.setWidth 32 - C[5].setWidth 32 * 2 ^ 8
  let dT64 : BitVec 64 := dT.signExtend 64
  let temp1 : BitVec 32 := 2000 + ((dT64 * c64 C[6]).sdiv (2 ^ 23)).setWidth 32
  let off1 : BitVec 64 := c64 C[2] * 2 ^ 17 + (c64 C[4] * dT64).sdiv (2 ^ 6)
  let sens1 : BitVec 64 := c64 C[1] * 2 ^ 16 + (c64 C[3] * dT64).sdiv (2 ^ 7)
  let below : BitVec 64 := temp1.signExtend 64 - 2000
  let farBelow : BitVec 64 := temp1.signExtend 64 + 1500
  let t2 : BitVec 64 := (dT64 * dT64).sshiftRight 31
  let off2 : BitVec 64 := (5 * (below * below)).sdiv 2
  let sens2 : BitVec 64 := (5 * (below * below)).sdiv 4
  let first := temp1.slt 2000
  let second := temp1.slt (-1500)
  let off2' := if second then off2 + 7 * (farBelow * farBelow) else off2
  let sens2' := if second then sens2 + (11 * (farBelow * farBelow)).sdiv 2 else sens2
  let temp := if first then temp1 - t2.setWidth 32 else temp1
  let off := if first then off1 - off2' else off1
  let sens := if first then sens1 - sens2' else sens1
  (temp, ((d1.setWidth 64 * sens).sshiftRight 21 - off).sshiftRight 15)

/-- PT_CONVERT on the block (R135). The pair fits s32 (R131), so narrowing it to the registers loses nothing. -/
def ptConvert (b : Block) : Block :=
  if b.calValid then
    let r := compensate b.coef b.d1 b.d2
    Block.succeed
      { b with
        tempI := BitVec.ofInt 32 r.1
        presI := BitVec.ofInt 32 r.2
        tempF := f32 r.1 100
        presF := f32 r.2 100
        ptValid := true }
  else Block.raise .calibrationInvalid { b with ptValid := false }

/-- PT_CONVERT (R135). -/
def execPtConvert (s : State) : Host.Outcome State Fault Refusal := .next (s.withBlock (ptConvert s.block))

end Sys2Proof.Machine
end

