-- ==== Sys2Proof/Machine/Humidity.lean ====
section
/-!
DEFINITION. HT_DECODE: the affine maps, the clamp and the command (44_humidity.md R166, R167, R175).
-/

namespace Sys2Proof.Machine

/-- N_T, the temperature's exact numerator over 65535; no clamp is applied (R166). -/
def htTempNumerator (raw : Nat) : Int := 175 * raw - 2949075

/-- N_H, the clamped humidity's exact numerator over 65535 (R167). -/
def htHumNumerator (raw : Nat) : Int := min 6553500 (max 0 (125 * raw - 393210))

/-- HT_DECODE on the block (R175): both checksums and both pass bits are recorded before anything is raised (R205). -/
def htDecode (b : Block) : Block :=
  let tOk := crc8Temp b.frame == b.frame[2]
  let hOk := crc8Hum b.frame == b.frame[5]
  let seen := { b with crc8T := crc8Temp b.frame, crc8H := crc8Hum b.frame, tCrcOk := tOk, hCrcOk := hOk }
  if tOk && hOk then
    let nT := htTempNumerator (rawTemp b.frame)
    let nH := htHumNumerator (rawHum b.frame)
    Block.succeed
      { seen with
        htTempN := BitVec.ofInt 32 nT
        htHumN := BitVec.ofInt 32 nH
        htTempF := f32 nT 65535
        htHumF := f32 nH 65535
        htValid := true }
  else Block.raise .frameChecksumError { seen with htValid := false }

/-- HT_DECODE (R175). -/
def execHtDecode (s : State) : Host.Outcome State Fault Refusal := .next (s.withBlock (htDecode s.block))

end Sys2Proof.Machine
end

