-- ==== Sys2Proof/Machine/RegAccess.lean ====
section
/-!
DEFINITION. REG_READ, REG_WRITE, the dispatch of a command word, and ILLEGAL_CMD (40_register_access.md R90 to R94).
-/

namespace Sys2Proof.Machine

/-- ILLEGAL_CMD on the block (R94): ERR <- 6 and nothing else; the command word is not kept (R201). -/
def illegalCmd (b : Block) : Block := Block.raise .illegalCommand b

/-- `dispatch(d)`: the command that the command word selects (R93). -/
def dispatch (b : Block) (d : Word) : Block :=
  if d = 0x00000001 then calValidate b
  else if d = 0x00000002 then ptConvert b
  else if d = 0x00000003 then htDecode b
  else if d = 0x00000004 then altCompute b
  else illegalCmd b

/-- A host write of one register (R92): STATUS, CRC and the result registers ignore it (R24). -/
def writeReg (b : Block) (r : RegName) (d : Word) : Block :=
  match r with
  | .cmd => dispatch b d
  | .status => b
  | .crc => b
  | .coef i => coefWrite b i d
  | .d1 => { b with d1 := keptCount d }
  | .d2 => { b with d2 := keptCount d }
  | .frame k => { b with frame := b.frame.set k (keptByte d) }
  | .baseline => { b with baseline := d }
  | .tempI => b
  | .presI => b
  | .tempF => b
  | .presF => b
  | .htTempN => b
  | .htHumN => b
  | .htTempF => b
  | .htHumF => b
  | .altF => b

/-- `REG_WRITE(a, d)` on the block (R92): a write to a reserved index has no effect. -/
def regWrite (b : Block) (a : RegIndex) (d : Word) : Block :=
  match RegName.ofIndex a with
  | some r => writeReg b r d
  | none => b

/-- REG_READ (R90): the value goes to the host, no state of the block is written, and the record's D field is ignored
(R71). -/
def execRegRead (a : RegIndex) (_d : Word) (s : State) : Host.Outcome State Fault Refusal :=
  .next (s.respond (readValue s.block a))

/-- REG_WRITE (R92). A decoded record has a ≠ 0 here; at a = 0 the meaning is R92's own first line, the dispatch of d as a
command word (notes/assumptions/11.md). -/
def execRegWrite (a : RegIndex) (d : Word) (s : State) : Host.Outcome State Fault Refusal :=
  .next (s.withBlock (regWrite s.block a d))

/-- ILLEGAL_CMD (R94). -/
def execIllegalCmd (_d : Word) (s : State) : Host.Outcome State Fault Refusal :=
  .next (s.withBlock (illegalCmd s.block))

end Sys2Proof.Machine
end

