-- ==== Sys2Proof/Machine/Dispatch.lean ====
section
/-!
DEFINITION. The meaning of each instruction: one arm per row of the opcode map (30_encoding.md R75).
-/

namespace Sys2Proof.Machine

def exec (i : Instr) (s : State) : Host.Outcome State Fault Refusal :=
  match i with
  | .regRead a d => Sys2Proof.Machine.execRegRead a d s
  | .regWrite a d => Sys2Proof.Machine.execRegWrite a d s
  | .calValidate => Sys2Proof.Machine.execCalValidate s
  | .ptConvert => Sys2Proof.Machine.execPtConvert s
  | .htDecode => Sys2Proof.Machine.execHtDecode s
  | .altCompute => Sys2Proof.Machine.execAltCompute s
  | .illegalCmd d => Sys2Proof.Machine.execIllegalCmd d s

end Sys2Proof.Machine
end

