-- ==== Sys2Proof/Machine/Step.lean ====
section
/-!
DEFINITION. One step of the machine: the block performs the next host event (10_state.md R20; 20_memory.md R55;
70_reset_and_hazards.md R240).
-/

namespace Sys2Proof.Machine

/-- One transaction is one step (R240), performed in issue order (R55), and a command completes in the step of the write
that carries it (R93). A reset is performed between two transactions (R230). With nothing to perform the block is idle
(R231): it has no agent of its own that steps (R20), so nothing changes (notes/assumptions/3.md). -/
def step (s : State) : Host.Outcome State Fault Refusal :=
  match s.pending with
  | [] => .next s
  | e :: rest =>
    match deliver e with
    | .transaction i => exec i (s.accept rest)
    | .reset => .next (s.accept rest).takeReset
    | .stuck f => .fault f
    | .refuse r => .refused r

/-- `s` with the record that a number of the opcode table stands for as the host's next transaction. The machine fetches
nothing (R22): its program is the host's list of transactions, loaded from outside (notes/assumptions/1.md). -/
def State.withFetchWord (s : State) (nbits w : Nat) : State := placeNext s (recordOfTableWord nbits w)

end Sys2Proof.Machine
end

