-- ==== Sys2Proof/Machine/Assembler.lean ====
section
/-!
DEFINITION. The syntax of host programs (30_encoding.md R79 to R81): values, statements, pseudo-instructions and their
expansions, the record of each statement, and the reading of a program's text. What R79 does not fix of the text is
listed in notes/assumptions/16.md.
-/

namespace Sys2Proof

/-- V of R79: an integer, or `f32(x)` for the decimal x, given as a quotient. -/
inductive AsmValue where
  | int (n : Int)
  | float (num : Int) (den : Nat)
  deriving DecidableEq, Repr

/-- The 32 bits of a value: a negative integer means its two's-complement pattern, `f32(x)` means bits32(f32(x)) (R79),
and a statement encodes V[31:0] (R81). -/
def AsmValue.word : AsmValue → Word
  | .int n => BitVec.ofInt 32 n
  | .float num den => Machine.f32 num den

/-- The two statements that spell a transaction (R79). -/
inductive AsmTransaction where
  /-- `rd REG`. -/
  | rd (a : RegIndex)
  /-- `wr REG, V`. -/
  | wr (a : RegIndex) (v : AsmValue)
  deriving DecidableEq, Repr

/-- A statement of a host program: a transaction (R79) or a pseudo-instruction (R80). -/
inductive AsmStatement where
  | transaction (t : AsmTransaction)
  | calValidate
  | ptConvert
  | htDecode
  | altCompute
  | ldCoef (v : Vector AsmValue 7)
  | ldRaw (v1 v2 : AsmValue)
  | ldFrame (v : Vector AsmValue 6)
  deriving DecidableEq, Repr

/-- The `wr` statements that load consecutive indices from `first` on. -/
def asmLoad (first : Nat) (vs : List AsmValue) : List AsmTransaction :=
  vs.mapIdx (fun k v => .wr (BitVec.ofNat 6 (first + k)) v)

/-- R80's table of expansions. -/
def AsmStatement.expand : AsmStatement → List AsmTransaction
  | .transaction t => [t]
  | .calValidate => [.wr RegName.cmd.index (.int 0x00000001)]
  | .ptConvert => [.wr RegName.cmd.index (.int 0x00000002)]
  | .htDecode => [.wr RegName.cmd.index (.int 0x00000003)]
  | .altCompute => [.wr RegName.cmd.index (.int 0x00000004)]
  | .ldCoef v => asmLoad (RegName.coef 0).index.toNat v.toList
  | .ldRaw v1 v2 => [.wr RegName.d1.index v1, .wr RegName.d2.index v2]
  | .ldFrame v => asmLoad (RegName.frame 0).index.toNat v.toList

/-- The record of a statement (R81). -/
def AsmTransaction.record : AsmTransaction → Record
  | .rd a => (0b00#2 ++ a).setWidth 40 <<< 32
  | .wr a v => ((0b10#2 ++ a).setWidth 40 <<< 32) ||| v.word.setWidth 40

/-- The records of a statement, in order (R80, R81). -/
def AsmStatement.records (t : AsmStatement) : List Record := t.expand.map AsmTransaction.record

/-- The register names a program may use (R79, R24). -/
def asmRegNames : List (String × RegName) :=
  [("CMD", .cmd), ("STATUS", .status), ("CRC", .crc), ("COEF0", .coef 0), ("COEF1", .coef 1), ("COEF2", .coef 2),
    ("COEF3", .coef 3), ("COEF4", .coef 4), ("COEF5", .coef 5), ("COEF6", .coef 6), ("D1", .d1), ("D2", .d2),
    ("FRAME0", .frame 0), ("FRAME1", .frame 1), ("FRAME2", .frame 2), ("FRAME3", .frame 3), ("FRAME4", .frame 4),
    ("FRAME5", .frame 5), ("BASELINE", .baseline), ("TEMP_I", .tempI), ("PRES_I", .presI), ("TEMP_F", .tempF),
    ("PRES_F", .presF), ("HT_TEMP_N", .htTempN), ("HT_HUM_N", .htHumN), ("HT_TEMP_F", .htTempF),
    ("HT_HUM_F", .htHumF), ("ALT_F", .altF)]

/-- A blank between two parts of a line. -/
def asmBlank (c : Char) : Bool := c == ' ' || c == '\t'

/-- A text without the blanks at its two ends. -/
def asmTrim (t : List Char) : List Char := ((t.dropWhile asmBlank).reverse.dropWhile asmBlank).reverse

/-- The value of a digit in a base up to 16. -/
def asmDigit (base : Nat) (c : Char) : Option Nat :=
  let v := if '0' ≤ c ∧ c ≤ '9' then c.toNat - '0'.toNat
    else if 'a' ≤ c ∧ c ≤ 'f' then c.toNat - 'a'.toNat + 10
    else if 'A' ≤ c ∧ c ≤ 'F' then c.toNat - 'A'.toNat + 10
    else base
  if v < base then some v else none

/-- The number that digits spell after a number already read. -/
def asmDigits (base acc : Nat) : List Char → Option Nat
  | [] => some acc
  | c :: cs =>
    match asmDigit base c with
    | some v => asmDigits base (acc * base + v) cs
    | none => none

/-- An unsigned number of at least one digit. -/
def asmNat (base : Nat) (t : List Char) : Option Nat := if t.isEmpty then none else asmDigits base 0 t

/-- A decimal fraction without its sign, as a quotient of powers of ten. -/
def asmFraction (t : List Char) : Option (Nat × Nat) :=
  match t.span (· != '.') with
  | (whole, []) => (asmNat 10 whole).map (fun n => (n, 1))
  | (whole, _ :: digits) =>
    if whole.isEmpty || digits.isEmpty then none
    else (asmNat 10 (whole ++ digits)).map (fun n => (n, 10 ^ digits.length))

/-- A value of R79: decimal, hex, negative decimal, or `f32(x)` for a decimal x. -/
def asmValue (t : List Char) : Option AsmValue :=
  match t with
  | '0' :: 'x' :: hex => (asmNat 16 hex).map (fun n => .int n)
  | '-' :: dec => (asmNat 10 dec).map (fun n => .int (-(n : Int)))
  | 'f' :: '3' :: '2' :: '(' :: rest =>
    match rest.reverse with
    | ')' :: inner =>
      match asmTrim inner.reverse with
      | '-' :: x => (asmFraction x).map (fun q => .float (-(q.1 : Int)) q.2)
      | x => (asmFraction x).map (fun q => .float q.1 q.2)
    | _ => none
  | dec => (asmNat 10 dec).map (fun n => .int n)

/-- REG of R79: a register name, or `[n]` for word index n in decimal. -/
def asmReg (t : List Char) : Option RegIndex :=
  match t with
  | '[' :: rest =>
    match rest.reverse with
    | ']' :: inner =>
      match asmNat 10 inner.reverse with
      | some n => if n < 64 then some (BitVec.ofNat 6 n) else none
      | none => none
    | _ => none
  | name => (asmRegNames.find? (fun r => r.1.toList == name)).map (fun r => r.2.index)

/-- The operands of a statement: what stands between commas. -/
def asmOperands (t : List Char) : List (List Char) :=
  if (asmTrim t).isEmpty then [] else (t.splitOn ',').map asmTrim

/-- One statement from its first word and its operands (R79, R80). -/
def asmStatement (word : String) (ops : List (List Char)) : Option AsmStatement :=
  match word, ops with
  | "rd", [r] => (asmReg r).map (fun a => .transaction (.rd a))
  | "wr", [r, v] =>
    match asmReg r, asmValue v with
    | some a, some x => some (.transaction (.wr a x))
    | _, _ => none
  | "cal.validate", [] => some .calValidate
  | "pt.convert", [] => some .ptConvert
  | "ht.decode", [] => some .htDecode
  | "alt.compute", [] => some .altCompute
  | "ld.coef", [a0, a1, a2, a3, a4, a5, a6] =>
    match asmValue a0, asmValue a1, asmValue a2, asmValue a3, asmValue a4, asmValue a5, asmValue a6 with
    | some v0, some v1, some v2, some v3, some v4, some v5, some v6 => some (.ldCoef #v[v0, v1, v2, v3, v4, v5, v6])
    | _, _, _, _, _, _, _ => none
  | "ld.raw", [a1, a2] =>
    match asmValue a1, asmValue a2 with
    | some v1, some v2 => some (.ldRaw v1 v2)
    | _, _ => none
  | "ld.frame", [a0, a1, a2, a3, a4, a5] =>
    match asmValue a0, asmValue a1, asmValue a2, asmValue a3, asmValue a4, asmValue a5 with
    | some v0, some v1, some v2, some v3, some v4, some v5 => some (.ldFrame #v[v0, v1, v2, v3, v4, v5])
    | _, _, _, _, _, _ => none
  | _, _ => none

/-- The records of one line: what stands from `;` on is a comment (R79), a line without a statement has none, and a line
that is no statement of R79 or R80 is rejected. -/
def asmLine (line : List Char) : Option (List Record) :=
  let text := asmTrim (line.takeWhile (· != ';'))
  if text.isEmpty then some []
  else
    let parts := text.span (fun c => !asmBlank c)
    (asmStatement (String.ofList parts.1) (asmOperands parts.2)).map AsmStatement.records

/-- The records of a program, line by line in order (R79: a host program is a list of lines). -/
def assemble : List String → Option (List Record)
  | [] => some []
  | line :: rest =>
    match asmLine line.toList, assemble rest with
    | some here, some after => some (here ++ after)
    | _, _ => none

end Sys2Proof
end

