-- ==== Sys2Proof/Safety.lean ====
section
/-!
DEFINITION. The terms claims use: the invariant of the block, the two converters' shares of its state, runs without a
reset, and DOC's real altitude formula.
-/

namespace Sys2Proof.Machine

/-- What holds of the block in every state a run reaches. Each part names the rule it comes from. -/
structure Block.Inv (b : Block) : Prop where
  /-- Codes 7..15 are never produced (R200, X10). -/
  err_produced : b.err.toNat ≤ 6
  /-- A locked table is valid, since it cannot change (R104). -/
  locked_valid : b.calValid = true → tableValid b.coef = true
  /-- CRC shows the checksums of a locked table (R29, R103). -/
  crc_of_locked : b.calValid = true → b.crc4Calc = crc4 b.coef ∧ b.crc4Stored = storedChecksum b.coef
  /-- WLOCK records a write to a locked table, and a table stays locked until reset (R104, R105). -/
  wlock_locked : b.wlock = true → b.calValid = true
  /-- A pressure result needs a valid table, which stays valid (R104, R135). -/
  pt_calibrated : b.ptValid = true → b.calValid = true
  /-- An altitude needs a pressure result, which stays valid (R104, R135, R153). -/
  alt_has_pressure : b.altValid = true → b.ptValid = true
  /-- A frame result is marked valid exactly when both halves of the last frame passed (R175). -/
  ht_both_halves : b.htValid = (b.tCrcOk && b.hCrcOk)
  /-- TEMP_F is TEMP_I / 100 rounded once (R38, R128). -/
  tempF_rounded : b.tempF = f32 b.tempI.toInt 100
  /-- PRES_F is PRES_I / 100 rounded once (R38, R128). -/
  presF_rounded : b.presF = f32 b.presI.toInt 100
  /-- HT_TEMP_F is HT_TEMP_N / 65535 rounded once (R40, R169). -/
  htTempF_rounded : b.htTempF = f32 b.htTempN.toInt 65535
  /-- HT_HUM_F is HT_HUM_N / 65535 rounded once (R40, R169). -/
  htHumF_rounded : b.htHumF = f32 b.htHumN.toInt 65535
  /-- The bounds of the final TEMP (R131). -/
  temp_bounds : -260136 ≤ b.tempI.toInt ∧ b.tempI.toInt ≤ 133069
  /-- The bound of P (R131). -/
  pres_bound : b.presI.toInt.natAbs < 2 ^ 26
  /-- The range of N_T (R168). -/
  htTemp_range : -2949075 ≤ b.htTempN.toInt ∧ b.htTempN.toInt ≤ 8519550
  /-- The range of N_H (R168). -/
  htHum_range : 0 ≤ b.htHumN.toInt ∧ b.htHumN.toInt ≤ 6553500

/-- The invariant of the machine. -/
def State.Inv (s : State) : Prop := s.block.Inv

/-- No reset is among the events still to be delivered. -/
def noResetPending (s : State) : Prop := HostEvent.reset ∉ s.pending

/-- What is the pressure/temperature compensator's alone of R23's record: its inputs, gates, checksums and results. -/
structure CompensatorShare where
  coef : CoefTable
  d1 : Count
  d2 : Count
  baseline : Word
  calValid : Bool
  ptValid : Bool
  altValid : Bool
  wlock : Bool
  crc4Calc : BitVec 4
  crc4Stored : BitVec 4
  tempI : Word
  presI : Word
  tempF : Word
  presF : Word
  altF : Word
  deriving DecidableEq, Repr

/-- What is the humidity/temperature decoder's alone of R23's record. Only STATUS.ERR is in neither share. -/
structure DecoderShare where
  frame : Frame
  htValid : Bool
  tCrcOk : Bool
  hCrcOk : Bool
  crc8T : Byte
  crc8H : Byte
  htTempN : Word
  htHumN : Word
  htTempF : Word
  htHumF : Word
  deriving DecidableEq, Repr

/-- The compensator's share of a block. -/
def compensatorShare (b : Block) : CompensatorShare :=
  { coef := b.coef, d1 := b.d1, d2 := b.d2, baseline := b.baseline, calValid := b.calValid, ptValid := b.ptValid,
    altValid := b.altValid, wlock := b.wlock, crc4Calc := b.crc4Calc, crc4Stored := b.crc4Stored, tempI := b.tempI,
    presI := b.presI, tempF := b.tempF, presF := b.presF, altF := b.altF }

/-- The decoder's share of a block. -/
def decoderShare (b : Block) : DecoderShare :=
  { frame := b.frame, htValid := b.htValid, tCrcOk := b.tCrcOk, hCrcOk := b.hCrcOk, crc8T := b.crc8T,
    crc8H := b.crc8H, htTempN := b.htTempN, htHumN := b.htHumN, htTempF := b.htTempF, htHumF := b.htHumF }

/-- The nine result registers of the map (R37 to R41), in index order. -/
def resultRegs (b : Block) : List Word :=
  [b.tempI, b.presI, b.tempF, b.presF, b.htTempN, b.htHumN, b.htTempF, b.htHumF, b.altF]

/-- Is an instruction a command, a write to CMD (R15, R93)? -/
def isCommand : Instr → Bool
  | .regRead _ _ => false
  | .regWrite _ _ => false
  | .calValidate => true
  | .ptConvert => true
  | .htDecode => true
  | .altCompute => true
  | .illegalCmd _ => true

/-- A table with one bit flipped: bit `k` of coefficient `i` (R106). -/
def flipBit (C : CoefTable) (i : Fin 7) (k : Fin 16) : CoefTable := C.set i (C[i] ^^^ (1#16 <<< k.val))

/-- The bytewise sum over GF(2) of two tables (R106). -/
def xorTable (C D : CoefTable) : CoefTable := Vector.zipWith (· ^^^ ·) C D

/-- The exact quotient that `f32` rounds (R13). -/
def quotient (n : Int) (d : Nat) : ℚ := (n : ℚ) / (d : ℚ)

/-- The largest finite binary32 value, (2^24 − 1) × 2^104. -/
def maxFinite32 : ℚ := (2 ^ 24 - 1) * 2 ^ 104

/-- DOC's real formula, A(p, b) = 44330 × (1 − (p / b)^(1 / 5.255)), for p / b > 0 (R150). It is a term for claims about
`altFn`; the machine never evaluates it. -/
noncomputable def refAltitude (p b : ℝ) : ℝ := 44330 * (1 - (p / b) ^ (1 / (5.255 : ℝ)))

/-- An accuracy that a claim resting on ALT_FN may assume by name (R151): within `eps` of the reference for admissible
baselines and positive finite pressures. The model assumes no such thing. -/
def AltFnWithin (eps : ℝ) : Prop :=
  ∀ (p b : Word) (x y : ℚ), val32 p = some x → val32 b = some y → 0 < x → admissible b = true →
    ∃ z, val32 (altFn p b) = some z ∧ |(z : ℝ) - refAltitude x y| ≤ eps

end Sys2Proof.Machine
end

