-- ==== Sys2Proof/Certificates/Slice0/Obligations.lean ====
section
/-!
DEFINITION. The statements for the provers. Each docstring says which rule of spec/ a statement formalises; where it rests
on a choice of the model's or on an inference the spec marks as its own, it says so.
-/

open Sys2Proof Sys2Proof.Machine

/-! ## The two transactions (40_register_access.md) -/

/-- R90, whole: a read of any index returns read_value, writes no state, and ignores its D field. That the value lands in
the field `response` is the model's form of "return" (notes/assumptions/2.md). -/
def Obligations.RegReadReturnsReadValue : Prop :=
  ∀ (a : RegIndex) (d : Word) (s : State),
    decode (mkRecord 0b00 a d) = .ok (.regRead a d) ∧
    exec (.regRead a d) s = .next { s with response := some (readValue s.block a) } ∧
    readValue s.block 0 = 0 ∧
    ((a = 3 ∨ a = 11 ∨ a = 21 ∨ a = 22 ∨ a = 23 ∨ 33 ≤ a) → readValue s.block a = 0) ∧
    readValue s.block 24 = s.block.tempI ∧ readValue s.block 25 = s.block.presI ∧
    readValue s.block 26 = s.block.tempF ∧ readValue s.block 27 = s.block.presF ∧
    readValue s.block 28 = s.block.htTempN ∧ readValue s.block 29 = s.block.htHumN ∧
    readValue s.block 30 = s.block.htTempF ∧ readValue s.block 31 = s.block.htHumF ∧
    readValue s.block 32 = s.block.altF ∧
    exec (.regRead 1 0) State.reset = .next { State.reset with response := some 0x00000000 }

/-- R91, whole: what each of the 64 indices reads as, with the places of the STATUS and CRC fields. -/
def Obligations.ReadValueOfEveryIndex : Prop :=
  ∀ b : Block,
    readValue b 0 = 0x00000000 ∧
    readValue b 1 = (b.err ++ 0#1 ++ BitVec.ofBool b.wlock ++ BitVec.ofBool b.hCrcOk ++ BitVec.ofBool b.tCrcOk
      ++ BitVec.ofBool b.altValid ++ BitVec.ofBool b.htValid ++ BitVec.ofBool b.ptValid
      ++ BitVec.ofBool b.calValid).setWidth 32 ∧
    (readValue b 1).extractLsb' 8 4 = b.err ∧ (readValue b 1).getLsbD 7 = false ∧
    (readValue b 1).getLsbD 0 = b.calValid ∧
    readValue b 2 = (b.crc8H ++ b.crc8T ++ b.crc4Stored ++ b.crc4Calc).setWidth 32 ∧
    (readValue b 2).extractLsb' 0 4 = b.crc4Calc ∧ (readValue b 2).extractLsb' 4 4 = b.crc4Stored ∧
    (readValue b 2).extractLsb' 8 8 = b.crc8T ∧ (readValue b 2).extractLsb' 16 8 = b.crc8H ∧
    (∀ i : Fin 7, readValue b (BitVec.ofNat 6 (4 + i.val)) = (b.coef[i]).setWidth 32) ∧
    readValue b 12 = b.d1.setWidth 32 ∧ readValue b 13 = b.d2.setWidth 32 ∧
    (∀ k : Fin 6, readValue b (BitVec.ofNat 6 (14 + k.val)) = (b.frame[k]).setWidth 32) ∧
    readValue b 20 = b.baseline ∧
    readValue b 24 = b.tempI ∧ readValue b 25 = b.presI ∧ readValue b 26 = b.tempF ∧ readValue b 27 = b.presF ∧
    readValue b 28 = b.htTempN ∧ readValue b 29 = b.htHumN ∧ readValue b 30 = b.htTempF ∧
    readValue b 31 = b.htHumF ∧ readValue b 32 = b.altF ∧
    ∀ a : RegIndex, (a = 3 ∨ a = 11 ∨ a = 21 ∨ a = 22 ∨ a = 23 ∨ 33 ≤ a) → readValue b a = 0x00000000

/-- R92, whole, for every index: the completion and the whole effect of a REG_WRITE. At A = 0 the write is the dispatch of
its command word (R93, R76). -/
def Obligations.RegWriteStoresByRegister : Prop :=
  ∀ (d : Word) (s : State),
    (∀ a : RegIndex, a ≠ 0 → decode (mkRecord 0b10 a d) = .ok (.regWrite a d)) ∧
    exec (.regWrite 0 d) s = .next { s with block := dispatch s.block d } ∧
    (∀ i : Fin 7, exec (.regWrite (BitVec.ofNat 6 (4 + i.val)) d) s =
      .next { s with block := if s.block.calValid then { s.block with wlock := true }
        else { s.block with coef := s.block.coef.set i (d.extractLsb' 0 16) } }) ∧
    exec (.regWrite 12 d) s = .next { s with block := { s.block with d1 := d.extractLsb' 0 24 } } ∧
    exec (.regWrite 13 d) s = .next { s with block := { s.block with d2 := d.extractLsb' 0 24 } } ∧
    (∀ k : Fin 6, exec (.regWrite (BitVec.ofNat 6 (14 + k.val)) d) s =
      .next { s with block := { s.block with frame := s.block.frame.set k (d.extractLsb' 0 8) } }) ∧
    exec (.regWrite 20 d) s = .next { s with block := { s.block with baseline := d } } ∧
    (∀ a : RegIndex, (a = 1 ∨ a = 2 ∨ a = 3 ∨ a = 11 ∨ 21 ≤ a) → exec (.regWrite a d) s = .next s) ∧
    exec (.regWrite 12 0xFF123456) s = .next { s with block := { s.block with d1 := 0x123456 } } ∧
    exec (.regWrite 16 0x1A5) s = .next { s with block := { s.block with frame := s.block.frame.set 2 0xA5 } }

/-- R33, R34 and R36: the input registers keep the bits R74 names, and read them back zero-extended; no command writes
BASELINE, and ALT_COMPUTE reads it. -/
def Obligations.InputRegistersKeepAndReadBack : Prop :=
  ∀ (d : Word) (s : State),
    (∃ t, exec (.regWrite 12 d) s = .next t ∧ t.block.d1 = d.extractLsb' 0 24 ∧
      readValue t.block 12 = (d.extractLsb' 0 24).setWidth 32) ∧
    (∃ t, exec (.regWrite 13 d) s = .next t ∧ t.block.d2 = d.extractLsb' 0 24 ∧
      readValue t.block 13 = (d.extractLsb' 0 24).setWidth 32) ∧
    (∀ k : Fin 6, ∃ t, exec (.regWrite (BitVec.ofNat 6 (14 + k.val)) d) s = .next t ∧
      t.block.frame[k] = d.extractLsb' 0 8 ∧
      readValue t.block (BitVec.ofNat 6 (14 + k.val)) = (d.extractLsb' 0 8).setWidth 32) ∧
    (∃ t, exec (.regWrite 20 d) s = .next t ∧ t.block.baseline = d ∧ readValue t.block 20 = d) ∧
    (∀ i, isCommand i = true → ∃ t, exec i s = .next t ∧ t.block.baseline = s.block.baseline) ∧
    (s.block.ptValid = true → admissible s.block.baseline = true →
      ∃ t, exec .altCompute s = .next t ∧ t.block.altF = altFn s.block.presF s.block.baseline)

/-- R26: a write to CMD is the command its whole word selects, and CMD reads as 0, whatever was written. -/
def Obligations.CommandWordSelectsCommand : Prop :=
  ∀ (d : Word) (s : State),
    exec (decodeCommand d) s = exec (.regWrite 0 d) s ∧
    (d = 1 → decodeCommand d = .calValidate) ∧ (d = 2 → decodeCommand d = .ptConvert) ∧
    (d = 3 → decodeCommand d = .htDecode) ∧ (d = 4 → decodeCommand d = .altCompute) ∧
    (¬(d = 1 ∨ d = 2 ∨ d = 3 ∨ d = 4) → decodeCommand d = .illegalCmd d) ∧
    ∃ t, exec (.regWrite 0 d) s = .next t ∧ readValue t.block 0 = 0

/-- The frame of a REG_WRITE as the host sees it, for every index but CMD: every other register reads as before, but that
STATUS takes WLOCK (bit 6) where a locked coefficient is written; the model's `pending` is left alone. -/
def Obligations.RegWriteLeavesOtherRegisters : Prop :=
  ∀ (a : RegIndex) (d : Word) (s : State), a ≠ 0 →
    ∃ t, exec (.regWrite a d) s = .next t ∧ t.pending = s.pending ∧ t.response = s.response ∧
      (∀ x : RegIndex, x ≠ a → x ≠ 1 → readValue t.block x = readValue s.block x) ∧
      readValue t.block 1 =
        if s.block.calValid = true ∧ 4 ≤ a ∧ a ≤ 10 then readValue s.block 1 ||| 0x40 else readValue s.block 1

/-- R24's access column: RO ignores writes, WO reads as 0, an index without a register is RAZ/WI, and a register held in N
bits reads with its bits from N up at 0 (R25). -/
def Obligations.AccessRightsOfTheWindow : Prop :=
  (∀ (r : RegName) (d : Word) (s : State), r.access = .ro → exec (.regWrite r.index d) s = .next s) ∧
  (∀ (r : RegName) (b : Block), r.access = .wo → readValue b r.index = 0) ∧
  (∀ (a : RegIndex) (d : Word) (s : State), RegName.ofIndex a = none →
    readValue s.block a = 0 ∧ exec (.regWrite a d) s = .next s) ∧
  (∀ (b : Block) (i : Fin 7), (readValue b (RegName.coef i).index).extractLsb' 16 16 = 0) ∧
  (∀ (b : Block) (k : Fin 6), (readValue b (RegName.frame k).index).extractLsb' 8 24 = 0) ∧
  (∀ b : Block, (readValue b 12).extractLsb' 24 8 = 0 ∧ (readValue b 13).extractLsb' 24 8 = 0 ∧
    (readValue b 1).extractLsb' 12 20 = 0 ∧ (readValue b 2).extractLsb' 24 8 = 0)

/-- R56's last paragraph (an inference the spec marks as its own): two identical writes back to back leave the state of
one, for commands too. -/
def Obligations.IdenticalWritesLeaveOneState : Prop :=
  ∀ (i : Instr) (s : State), (∀ a d, i ≠ .regRead a d) → ∃ t, exec i s = .next t ∧ exec i t = .next t

/-! ## The coefficient table (41_calibration.md) -/

/-- R101, whole: the 16 bytes the CRC-4 covers, in order. -/
def Obligations.Crc4StreamBytes : Prop :=
  ∀ C : CoefTable, crc4Stream C =
    [C[0].extractLsb' 8 8 &&& 0x0F, C[0].extractLsb' 0 8, C[1].extractLsb' 8 8, C[1].extractLsb' 0 8,
      C[2].extractLsb' 8 8, C[2].extractLsb' 0 8, C[3].extractLsb' 8 8, C[3].extractLsb' 0 8,
      C[4].extractLsb' 8 8, C[4].extractLsb' 0 8, C[5].extractLsb' 8 8, C[5].extractLsb' 0 8,
      C[6].extractLsb' 8 8, C[6].extractLsb' 0 8, 0x00, 0x00]

/-- R100's loop as it is written, over the entry counter: the model's fold over the stream computes it. -/
def Obligations.Crc4IsTheLoopOfTheRule : Prop :=
  ∀ C : CoefTable,
    let n : Vector (BitVec 16) 8 := #v[C[0] &&& 0x0FFF, C[1], C[2], C[3], C[4], C[5], C[6], 0x0000]
    let byte (cnt : Fin 16) : BitVec 8 :=
      if cnt.val % 2 = 0 then n[cnt.val / 2].extractLsb' 8 8 else n[(cnt.val - 1) / 2].extractLsb' 0 8
    let bit (rem : BitVec 16) : BitVec 16 := if rem.getLsbD 15 then (rem <<< 1) ^^^ 0x3000 else rem <<< 1
    let entry (rem : BitVec 16) (cnt : Fin 16) : BitVec 16 :=
      bit (bit (bit (bit (bit (bit (bit (bit (rem ^^^ (byte cnt).setWidth 16))))))))
    crc4 C = ((List.finRange 16).foldl entry 0x0000).extractLsb' 12 4

/-- R103, whole: CAL_VALIDATE completes on a match and raises CalibrationError on a mismatch, with all it writes and
nothing else; its record; the all-zero table; and the example. That a locked table succeeds again (corner case 2) holds
under the invariant, which rules out states no run reaches. -/
def Obligations.CalValidateChecksTheTable : Prop :=
  decode 0x8000000001 = .ok .calValidate ∧
  (∀ s : State, crc4 s.block.coef = s.block.coef[0].extractLsb' 12 4 →
    exec .calValidate s = .next { s with block := { s.block with
      crc4Calc := crc4 s.block.coef, crc4Stored := s.block.coef[0].extractLsb' 12 4, calValid := true, err := 0 } }) ∧
  (∀ s : State, crc4 s.block.coef ≠ s.block.coef[0].extractLsb' 12 4 →
    exec .calValidate s = .next { s with block := { s.block with
      crc4Calc := crc4 s.block.coef, crc4Stored := s.block.coef[0].extractLsb' 12 4, calValid := false, err := 1 } }) ∧
  (∃ t, exec .calValidate State.reset = .next t ∧ t.block.calValid = true ∧ t.block.err = 0) ∧
  (∀ s : State, s.Inv → s.block.calValid = true →
    ∃ t, exec .calValidate s = .next t ∧ t.block.calValid = true ∧ t.block.err = 0) ∧
  (∀ s : State, s.block.coef = #v[0xA0C5, 45000, 42000, 28000, 26000, 32000, 28000] →
    ∃ t, exec .calValidate s = .next t ∧ t.block.calValid = true ∧ t.block.err = 0 ∧
      (s.block.crc8T = 0 → s.block.crc8H = 0 → readValue t.block 2 = 0x000000AA))

/-- R105, whole: a write to a locked coefficient sets WLOCK and changes nothing else, a write to an unlocked one stores
D[15:0]; a failed validation leaves the table unlocked; and in a step that keeps to the invariant's states only a reset
unlocks the table. -/
def Obligations.CoefficientLock : Prop :=
  (∀ (i : Fin 7) (d : Word) (s : State), s.block.calValid = true →
    exec (.regWrite (BitVec.ofNat 6 (4 + i.val)) d) s = .next { s with block := { s.block with wlock := true } }) ∧
  (∀ (i : Fin 7) (d : Word) (s : State), s.block.calValid = false →
    exec (.regWrite (BitVec.ofNat 6 (4 + i.val)) d) s =
      .next { s with block := { s.block with coef := s.block.coef.set i (d.extractLsb' 0 16) } }) ∧
  (∀ s t : State, crc4 s.block.coef ≠ s.block.coef[0].extractLsb' 12 4 → exec .calValidate s = .next t →
    t.block.calValid = false ∧ t.block.coef = s.block.coef) ∧
  (∀ s t : State, s.Inv → s.block.calValid = true → step s = .next t → t.block.calValid = false →
    ∃ rest, s.pending = .reset :: rest)

/-- R104 (an inference the spec marks as its own), over whole runs: once the table is locked, a run that delivers no reset
keeps it locked and keeps every coefficient. -/
def Obligations.LockedTableSurvivesRuns : Prop :=
  ∀ (n : Nat) (s t : State), s.Inv → s.block.calValid = true → noResetPending s →
    Host.Core.run Sys2Proof.core n s = .next t → t.block.calValid = true ∧ t.block.coef = s.block.coef

/-- R106's first sentence (an inference the spec marks as its own): crc4 is linear over GF(2). -/
def Obligations.Crc4IsLinear : Prop := ∀ C D : CoefTable, crc4 (xorTable C D) = crc4 C ^^^ crc4 D

/-- R106 (an inference the spec marks as its own): every single-bit change to a valid table gives an invalid one. -/
def Obligations.SingleBitFlipsAreRejected : Prop :=
  ∀ (C : CoefTable) (i : Fin 7) (k : Fin 16), tableValid C = true → tableValid (flipBit C i k) = false

/-! ## The compensation (42_compensation.md) -/

/-- R121, whole: compensate is the polynomial with both branches, `/` truncating toward zero and `>>` the floor. -/
def Obligations.CompensatePolynomial : Prop :=
  ∀ (C : CoefTable) (d1 d2 : Count),
    let dT : Int := (d2.toNat : Int) - (C[5].toNat : Int) * 256
    let temp1 : Int := 2000 + Int.tdiv (dT * (C[6].toNat : Int)) 8388608
    let off1 : Int := (C[2].toNat : Int) * 131072 + Int.tdiv ((C[4].toNat : Int) * dT) 64
    let sens1 : Int := (C[1].toNat : Int) * 65536 + Int.tdiv ((C[3].toNat : Int) * dT) 128
    let t2 : Int := if temp1 < 2000 then Int.fdiv (dT * dT) 2147483648 else 0
    let off2 : Int := if temp1 < -1500 then
        Int.tdiv (5 * ((temp1 - 2000) * (temp1 - 2000))) 2 + 7 * ((temp1 + 1500) * (temp1 + 1500))
      else if temp1 < 2000 then Int.tdiv (5 * ((temp1 - 2000) * (temp1 - 2000))) 2 else 0
    let sens2 : Int := if temp1 < -1500 then
        Int.tdiv (5 * ((temp1 - 2000) * (temp1 - 2000))) 4 + Int.tdiv (11 * ((temp1 + 1500) * (temp1 + 1500))) 2
      else if temp1 < 2000 then Int.tdiv (5 * ((temp1 - 2000) * (temp1 - 2000))) 4 else 0
    compensate C d1 d2 =
      (temp1 - t2, Int.fdiv (Int.fdiv ((d1.toNat : Int) * (sens1 - sens2)) 2097152 - (off1 - off2)) 32768)

/-- R124, whole: which corrections each first-order TEMP takes, with its boundaries at 2000 and −1500. -/
def Obligations.BranchBoundaries : Prop :=
  ∀ (C : CoefTable) (d1 d2 : Count),
    let t := compTerms C d1 d2
    let first2 := Int.tdiv (5 * (t.temp1 - 2000) ^ 2) 2
    let first4 := Int.tdiv (5 * (t.temp1 - 2000) ^ 2) 4
    (t.temp1 ≥ 2000 → t.t2 = 0 ∧ t.off2 = 0 ∧ t.sens2 = 0) ∧
    (-1500 ≤ t.temp1 → t.temp1 ≤ 1999 → t.t2 = (t.dT * t.dT) / 2 ^ 31 ∧ t.off2 = first2 ∧ t.sens2 = first4) ∧
    (t.temp1 ≤ -1501 → t.t2 = (t.dT * t.dT) / 2 ^ 31 ∧ t.off2 = first2 + 7 * (t.temp1 + 1500) ^ 2 ∧
      t.sens2 = first4 + Int.tdiv (11 * (t.temp1 + 1500) ^ 2) 2) ∧
    t.temp = t.temp1 - t.t2 ∧ t.off = t.off1 - t.off2 ∧ t.sens = t.sens1 - t.sens2

/-- R131's table (an inference the spec marks as its own), every row, with the TEMP bounds attained. -/
def Obligations.CompensationBounds : Prop :=
  (∀ (C : CoefTable) (d1 d2 : Count),
    let t := compTerms C d1 d2
    t.dT ≥ -16776960 ∧ t.dT ≤ 16777215 ∧ (t.dT * (C[6].toNat : Int)).natAbs < 2 ^ 40 ∧ t.dT * t.dT < 2 ^ 48 ∧
    -129068 ≤ t.temp1 ∧ t.temp1 ≤ 133069 ∧ 0 ≤ t.t2 ∧ t.t2 ≤ 131071 ∧
    -260136 ≤ t.temp ∧ t.temp ≤ 133069 ∧ 0 ≤ t.off2 ∧ t.off2 < 2 ^ 38 ∧ 0 ≤ t.sens2 ∧ t.sens2 < 2 ^ 37 ∧
    t.off.natAbs < 2 ^ 38 ∧ t.sens.natAbs < 2 ^ 37 ∧ ((d1.toNat : Int) * t.sens).natAbs < 2 ^ 61 ∧ t.p.natAbs < 2 ^ 26) ∧
  (∃ C d1 d2, (compTerms C d1 d2).temp1 = 133069 ∧ (compTerms C d1 d2).temp = 133069) ∧
  (∃ C d1 d2, (compTerms C d1 d2).temp1 = -129068 ∧ (compTerms C d1 d2).temp = -260136)

/-- R9 and R131 (inferences the spec marks as its own): the polynomial evaluated in DOC's declared widths, dT and TEMP in
s32 and the rest in s64, gives exactly what evaluation over the integers gives. Where a width changes inside
`compensateDeclared` is notes/assumptions/17.md. -/
def Obligations.DeclaredWidthsNeverOverflow : Prop :=
  ∀ (C : CoefTable) (d1 d2 : Count),
    (compensateDeclared C d1 d2).1.toInt = (compensate C d1 d2).1 ∧
    (compensateDeclared C d1 d2).2.toInt = (compensate C d1 d2).2

/-- R135, whole: PT_CONVERT completes with both results where CAL_VALID is 1, raises CalibrationInvalid where it is 0, with
all it writes and nothing else; its record; its corner cases and example. -/
def Obligations.PtConvertComputesBothResults : Prop :=
  decode 0x8000000002 = .ok .ptConvert ∧
  (∀ s : State, s.block.calValid = true →
    exec .ptConvert s = .next { s with block := { s.block with
      tempI := BitVec.ofInt 32 (compensate s.block.coef s.block.d1 s.block.d2).1
      presI := BitVec.ofInt 32 (compensate s.block.coef s.block.d1 s.block.d2).2
      tempF := f32 (compensate s.block.coef s.block.d1 s.block.d2).1 100
      presF := f32 (compensate s.block.coef s.block.d1 s.block.d2).2 100
      ptValid := true
      err := 0 } }) ∧
  (∀ s : State, s.block.calValid = false →
    exec .ptConvert s = .next { s with block := { s.block with ptValid := false, err := 2 } }) ∧
  (∀ (C : CoefTable) (d2 : Count), (compTerms C 0 d2).p = (-(compTerms C 0 d2).off) / 2 ^ 15) ∧
  (∃ (C : CoefTable) (d2 : Count), 0 < (compTerms C 0 d2).p) ∧
  (∀ (C : CoefTable) (d1 d2 : Count), (compTerms C d1 d2).temp1 = 2000 → (compTerms C d1 d2).temp = 2000) ∧
  (∀ s : State, s.block.calValid = true → ∃ t, exec .ptConvert s = .next t ∧
    (readValue t.block 24).toInt = (compensate s.block.coef s.block.d1 s.block.d2).1 ∧
    (readValue t.block 25).toInt = (compensate s.block.coef s.block.d1 s.block.d2).2 ∧
    ((compensate s.block.coef s.block.d1 s.block.d2).2 = 0 → t.block.presF = 0x00000000)) ∧
  (∀ s : State, s.block.calValid = true → s.block.coef = #v[0xA0C5, 45000, 42000, 28000, 26000, 32000, 28000] →
    s.block.d1 = 6500000 → s.block.d2 = 8192000 → ∃ t, exec .ptConvert s = .next t ∧
      t.block.tempI = 2000 ∧ t.block.presI = 110949 ∧ t.block.tempF = 0x41A00000 ∧ t.block.presF = 0x448AAFAE)

/-- R126 and R136 (the second an inference the spec marks as its own): a conversion depends on C[1..6], D1, D2 and the
gate alone; C[0] is no input; and a second conversion with nothing between writes the same values. -/
def Obligations.ConversionIsPure : Prop :=
  (∀ s₁ s₂ : State, (∀ i : Fin 7, i ≠ 0 → s₁.block.coef[i] = s₂.block.coef[i]) →
    s₁.block.d1 = s₂.block.d1 → s₁.block.d2 = s₂.block.d2 →
    s₁.block.calValid = true → s₂.block.calValid = true →
    ∃ t₁ t₂, exec .ptConvert s₁ = .next t₁ ∧ exec .ptConvert s₂ = .next t₂ ∧
      t₁.block.tempI = t₂.block.tempI ∧ t₁.block.presI = t₂.block.presI ∧
      t₁.block.tempF = t₂.block.tempF ∧ t₁.block.presF = t₂.block.presF) ∧
  (∀ s : State, ∃ t, exec .ptConvert s = .next t ∧ exec .ptConvert t = .next t)

/-! ## Binary32 results (00_scope.md R13) -/

/-- R13's first item: `f32` gives the binary32 value nearest the exact quotient, a tie going to the even significand, for
every quotient up to the largest finite value; exact zero gives +0.0. The value of a pattern is `val32`, on the layout R13
states from general knowledge (notes/assumptions/13.md, notes/assumptions/14.md). -/
def Obligations.F32RoundsToNearestTiesToEven : Prop :=
  (∀ (n : Int) (d : Nat), 0 < d → |quotient n d| ≤ maxFinite32 →
    ∃ v, val32 (f32 n d) = some v ∧
      ∀ (x : Word) (w : ℚ), val32 x = some w → |v - quotient n d| ≤ |w - quotient n d| ∧
        (|v - quotient n d| = |w - quotient n d| → w ≠ v → significand (f32 n d) % 2 = 0)) ∧
  (∀ d : Nat, f32 0 d = 0x00000000)

/-- R13's last sentence (an inference the spec marks as its own): what the block rounds is a normal number or +0.0, for
every TEMP and P within their bounds and every N_T and N_H. -/
def Obligations.RoundedResultsAreNormalOrZero : Prop :=
  ∀ (n : Int) (d : Nat), n.natAbs < 2 ^ 26 → (d = 100 ∨ d = 65535) →
    (n = 0 → f32 n d = 0x00000000) ∧ (n ≠ 0 → expField (f32 n d) ≠ 0 ∧ expField (f32 n d) ≠ 0xFF)

/-! ## The altitude (43_altitude.md) -/

/-- R152: a baseline pattern is admissible exactly when its value is finite and greater than 0, and that is its bit form;
either zero, a negative value, an infinity and a NaN are refused. The value of a pattern is `val32`, on the layout R13
states from general knowledge, with none for an infinity or a NaN, which is the model's choice (notes/assumptions/13.md,
notes/assumptions/14.md). -/
def Obligations.AdmissibleIffFinitePositive : Prop :=
  (∀ b : Word, admissible b = true ↔ ∃ v, val32 b = some v ∧ 0 < v) ∧
  (∀ b : Word, admissible b = true ↔
    (b.getLsbD 31 = false ∧ b.extractLsb' 23 8 ≠ 0xFF ∧ b.extractLsb' 0 31 ≠ 0)) ∧
  admissible 0x00000000 = false ∧ admissible 0x80000000 = false ∧ admissible 0xC47D0000 = false ∧
  admissible 0x7F800000 = false ∧ admissible 0x7FC00000 = false ∧ admissible 0x00000001 = true

/-- AF1 of R151, for every value of the open function: ALT_FN(b, b) = +0.0 for every finite b whose value is not 0; and
DOC's real formula (R150) agrees there. -/
def Obligations.AltFnOfBaselineIsZero : Prop :=
  ∀ (b : Word) (v : ℚ), val32 b = some v → v ≠ 0 →
    altFn b b = 0x00000000 ∧ val32 (altFn b b) = some 0 ∧ refAltitude (v : ℝ) (v : ℝ) = 0

/-- R153, whole: ALT_COMPUTE completes where a pressure is valid and the baseline admissible, and raises NoPressure and
then BaselineInvalid otherwise, with all it writes and nothing else; its record; that a later PT_CONVERT leaves ALT_F; and
the example, by AF1. -/
def Obligations.AltComputeGatesThenEvaluates : Prop :=
  decode 0x8000000004 = .ok .altCompute ∧
  (∀ s : State, s.block.ptValid = true → admissible s.block.baseline = true →
    exec .altCompute s = .next { s with block := { s.block with
      altF := altFn s.block.presF s.block.baseline, altValid := true, err := 0 } }) ∧
  (∀ s : State, s.block.ptValid = false →
    exec .altCompute s = .next { s with block := { s.block with altValid := false, err := 5 } }) ∧
  (∀ s : State, s.block.ptValid = true → admissible s.block.baseline = false →
    exec .altCompute s = .next { s with block := { s.block with altValid := false, err := 4 } }) ∧
  (∀ s : State, ∃ t, exec .ptConvert s = .next t ∧ t.block.altF = s.block.altF ∧
    t.block.altValid = s.block.altValid) ∧
  (∀ s : State, s.block.ptValid = true → s.block.presF = 0x448AAFAE → s.block.baseline = 0x448AAFAE →
    ∃ t, exec .altCompute s = .next t ∧ t.block.altF = 0x00000000 ∧ t.block.altValid = true ∧ t.block.err = 0)

/-! ## The decoder (44_humidity.md) -/

/-- R160 as it is written: the 8-bit remainder, its initial value, its step, and no final XOR. -/
def Obligations.Crc8IsTheLoopOfTheRule : Prop :=
  let bit (rem : BitVec 8) : BitVec 8 := if rem.getLsbD 7 then (rem <<< 1) ^^^ 0x31 else rem <<< 1
  crc8 [] = 0xFF ∧
  ∀ (s : List Byte) (b : Byte), crc8 (s ++ [b]) = bit (bit (bit (bit (bit (bit (bit (bit (crc8 s ^^^ b))))))))

/-- R165: the two raw values, high byte first, both u16. -/
def Obligations.RawValuesAreBigEndian : Prop :=
  ∀ f : Frame, rawTemp f = f[0].toNat * 256 + f[1].toNat ∧ rawHum f = f[3].toNat * 256 + f[4].toNat ∧
    rawTemp f < 2 ^ 16 ∧ rawHum f < 2 ^ 16

/-- R166 and R167: both numerators are the exact rationals over 65535, the temperature unclamped and the humidity clamped
to the closed range from 0 to 100. -/
def Obligations.DecodedValuesAreExact : Prop :=
  ∀ raw : Nat, raw < 2 ^ 16 →
    htTempNumerator raw = 175 * (raw : Int) - 2949075 ∧
    quotient (htTempNumerator raw) 65535 = -45 + 175 * (raw : ℚ) / 65535 ∧
    htHumNumerator raw = min 6553500 (max 0 (125 * (raw : Int) - 393210)) ∧
    quotient (htHumNumerator raw) 65535 = min 100 (max 0 (-6 + 125 * (raw : ℚ) / 65535))

/-- R168 (an inference the spec marks as its own): the ranges and the clamp thresholds. -/
def Obligations.ClampThresholds : Prop :=
  ∀ raw : Nat, raw < 2 ^ 16 →
    -2949075 ≤ htTempNumerator raw ∧ htTempNumerator raw ≤ 8519550 ∧ htTempNumerator raw ≠ 0 ∧
    htTempNumerator 16852 = 25 ∧ (raw ≠ 16852 → 25 < (htTempNumerator raw).natAbs) ∧
    (125 * (raw : Int) - 393210 < 0 ↔ raw ≤ 3145) ∧ (htHumNumerator raw = 0 ↔ raw ≤ 3145) ∧
    (6553500 < 125 * (raw : Int) - 393210 ↔ 55574 ≤ raw) ∧ (htHumNumerator raw = 6553500 ↔ 55574 ≤ raw) ∧
    125 * (raw : Int) - 393210 ≠ 0 ∧ 125 * (raw : Int) - 393210 ≠ 6553500 ∧
    0 ≤ htHumNumerator raw ∧ htHumNumerator raw ≤ 6553500

/-- R169's patterns: a humidity clamped low is +0.0, one clamped high is 100.0, and the temperature's end points are −45.0
and 130.0. -/
def Obligations.DecodedEndPoints : Prop :=
  (∀ raw : Nat, raw ≤ 3145 → f32 (htHumNumerator raw) 65535 = 0x00000000) ∧
  (∀ raw : Nat, 55574 ≤ raw → f32 (htHumNumerator raw) 65535 = 0x42C80000) ∧
  f32 (htTempNumerator 0) 65535 = 0xC2340000 ∧ f32 (htTempNumerator 65535) 65535 = 0x43020000

/-- R175, whole: HT_DECODE completes where both halves pass and raises FrameChecksumError otherwise, recording both
checksums and both pass bits either way, with all it writes and nothing else; its record; the all-zero frame; the
example. -/
def Obligations.HtDecodeChecksThenScales : Prop :=
  decode 0x8000000003 = .ok .htDecode ∧
  (∀ s : State, crc8 [s.block.frame[0], s.block.frame[1]] = s.block.frame[2] →
    crc8 [s.block.frame[3], s.block.frame[4]] = s.block.frame[5] →
    let rt : Nat := s.block.frame[0].toNat * 256 + s.block.frame[1].toNat
    let rh : Nat := s.block.frame[3].toNat * 256 + s.block.frame[4].toNat
    let nT : Int := 175 * (rt : Int) - 2949075
    let nH : Int := min 6553500 (max 0 (125 * (rh : Int) - 393210))
    exec .htDecode s = .next { s with block := { s.block with
      crc8T := crc8 [s.block.frame[0], s.block.frame[1]], crc8H := crc8 [s.block.frame[3], s.block.frame[4]]
      tCrcOk := true, hCrcOk := true
      htTempN := BitVec.ofInt 32 nT, htHumN := BitVec.ofInt 32 nH
      htTempF := f32 nT 65535, htHumF := f32 nH 65535
      htValid := true, err := 0 } }) ∧
  (∀ s : State, ¬(crc8 [s.block.frame[0], s.block.frame[1]] = s.block.frame[2] ∧
      crc8 [s.block.frame[3], s.block.frame[4]] = s.block.frame[5]) →
    exec .htDecode s = .next { s with block := { s.block with
      crc8T := crc8 [s.block.frame[0], s.block.frame[1]], crc8H := crc8 [s.block.frame[3], s.block.frame[4]]
      tCrcOk := crc8 [s.block.frame[0], s.block.frame[1]] == s.block.frame[2]
      hCrcOk := crc8 [s.block.frame[3], s.block.frame[4]] == s.block.frame[5]
      htValid := false, err := 3 } }) ∧
  (∀ s : State, s.block.frame = #v[0, 0, 0, 0, 0, 0] →
    ∃ t, exec .htDecode s = .next t ∧ t.block.err = 3 ∧ t.block.htValid = false) ∧
  (∀ s : State, s.block.frame = #v[0x66, 0x66, 0x93, 0x66, 0x66, 0x93] →
    ∃ t, exec .htDecode s = .next t ∧ t.block.htTempN = 1638375 ∧ t.block.htTempF = 0x41C80000 ∧
      t.block.htHumN = 2883540 ∧ t.block.htHumF = 0x42300000 ∧ t.block.htValid = true)

/-- R163 (an inference the spec marks as its own): with the data bytes fixed, every checksum byte but one is rejected, in
either half, and nothing of the decoder's results changes. -/
def Obligations.AlteredChecksumByteIsRejected : Prop :=
  ∀ (s : State) (x : Byte),
    (crc8 [s.block.frame[0], s.block.frame[1]] = s.block.frame[2] → x ≠ s.block.frame[2] →
      ∃ t, exec .htDecode { s with block := { s.block with frame := s.block.frame.set 2 x } } = .next t ∧
        t.block.tCrcOk = false ∧ t.block.htValid = false ∧ t.block.err = 3 ∧
        resultRegs t.block = resultRegs s.block) ∧
    (crc8 [s.block.frame[3], s.block.frame[4]] = s.block.frame[5] → x ≠ s.block.frame[5] →
      ∃ t, exec .htDecode { s with block := { s.block with frame := s.block.frame.set 5 x } } = .next t ∧
        t.block.hCrcOk = false ∧ t.block.htValid = false ∧ t.block.err = 3 ∧
        resultRegs t.block = resultRegs s.block)

/-- R176: HT_DECODE depends on the six frame bytes alone and writes nothing of the compensator's. -/
def Obligations.HtDecodeDependsOnTheFrameAlone : Prop :=
  (∀ s₁ s₂ : State, s₁.block.frame = s₂.block.frame →
    ∃ t₁ t₂, exec .htDecode s₁ = .next t₁ ∧ exec .htDecode s₂ = .next t₂ ∧
      t₁.block.crc8T = t₂.block.crc8T ∧ t₁.block.crc8H = t₂.block.crc8H ∧ t₁.block.tCrcOk = t₂.block.tCrcOk ∧
      t₁.block.hCrcOk = t₂.block.hCrcOk ∧ t₁.block.htValid = t₂.block.htValid ∧ t₁.block.err = t₂.block.err ∧
      (t₁.block.htValid = true → t₁.block.htTempN = t₂.block.htTempN ∧ t₁.block.htHumN = t₂.block.htHumN ∧
        t₁.block.htTempF = t₂.block.htTempF ∧ t₁.block.htHumF = t₂.block.htHumF)) ∧
  (∀ s : State, ∃ t, exec .htDecode s = .next t ∧ compensatorShare t.block = compensatorShare s.block)

/-! ## Errors and flags (60_exceptions.md, 10_state.md R42) -/

/-- R94, whole: ILLEGAL_CMD completes with ERR = 6 and nothing else changed; the words that decode to it; the corner cases
and the example. -/
def Obligations.IllegalCommandWritesErrOnly : Prop :=
  (∀ d : Word, ¬(d = 1 ∨ d = 2 ∨ d = 3 ∨ d = 4) → decode (mkRecord 0b10 0 d) = .ok (.illegalCmd d)) ∧
  (∀ (d : Word) (s : State), exec (.illegalCmd d) s = .next { s with block := { s.block with err := 6 } }) ∧
  decode 0x8000000000 = .ok (.illegalCmd 0x00000000) ∧ decode 0x8000000101 = .ok (.illegalCmd 0x00000101) ∧
  (∀ s : State, ∃ t, exec (.illegalCmd 0x7) s = .next t ∧
    readValue t.block 1 = (readValue s.block 1 &&& 0xFFFFF0FF) ||| 0x600)

/-- R200's table: the outcome code of every command, exactly as its cause decides, and never 7 to 15. -/
def Obligations.OutcomeCodeOfEveryCommand : Prop :=
  ∀ s : State,
    (∃ t, exec .calValidate s = .next t ∧
      t.block.err = if crc4 s.block.coef = s.block.coef[0].extractLsb' 12 4 then 0 else 1) ∧
    (∃ t, exec .ptConvert s = .next t ∧ t.block.err = if s.block.calValid then 0 else 2) ∧
    (∃ t, exec .htDecode s = .next t ∧
      t.block.err = if crc8 [s.block.frame[0], s.block.frame[1]] = s.block.frame[2] ∧
        crc8 [s.block.frame[3], s.block.frame[4]] = s.block.frame[5] then 0 else 3) ∧
    (∃ t, exec .altCompute s = .next t ∧
      t.block.err = if s.block.ptValid = false then 5 else if admissible s.block.baseline then 0 else 4) ∧
    (∀ d, ∃ t, exec (.illegalCmd d) s = .next t ∧ t.block.err = 6) ∧
    (∀ i, isCommand i = true → ∃ t, exec i s = .next t ∧ t.block.err.toNat ≤ 6)

/-- R205: the order of the checks inside one command, item by item. An illegal word is checked for nothing else;
ALT_COMPUTE reports NoPressure whatever BASELINE holds; HT_DECODE records both CRCs and both pass bits and reports
FrameChecksumError whichever half failed; CAL_VALIDATE and PT_CONVERT report their one error exactly on its cause; and a
locked coefficient write sets WLOCK and leaves ERR alone. -/
def Obligations.ErrorPriorityInsideACommand : Prop :=
  ∀ s : State,
    (∀ d, selectsCommand d = false → ∃ t, exec (decodeCommand d) s = .next t ∧
      t.block = { s.block with err := 6 }) ∧
    (s.block.ptValid = false → ∃ t, exec .altCompute s = .next t ∧ t.block.err = 5) ∧
    (s.block.ptValid = true → admissible s.block.baseline = false →
      ∃ t, exec .altCompute s = .next t ∧ t.block.err = 4) ∧
    (let crcT := crc8 [s.block.frame[0], s.block.frame[1]]
     let crcH := crc8 [s.block.frame[3], s.block.frame[4]]
     ∃ t, exec .htDecode s = .next t ∧ t.block.crc8T = crcT ∧ t.block.crc8H = crcH ∧
      t.block.tCrcOk = (crcT == s.block.frame[2]) ∧ t.block.hCrcOk = (crcH == s.block.frame[5]) ∧
      (crcT ≠ s.block.frame[2] ∨ crcH ≠ s.block.frame[5] → t.block.err = 3) ∧
      (crcT = s.block.frame[2] → crcH = s.block.frame[5] → t.block.err = 0)) ∧
    (∃ t, exec .calValidate s = .next t ∧
      t.block.err = if crc4 s.block.coef = s.block.coef[0].extractLsb' 12 4 then 0 else 1) ∧
    (∃ t, exec .ptConvert s = .next t ∧ t.block.err = if s.block.calValid then 0 else 2) ∧
    (∀ (i : Fin 7) (d : Word), s.block.calValid = true →
      ∃ t, exec (.regWrite (BitVec.ofNat 6 (4 + i.val)) d) s = .next t ∧
        t.block = { s.block with wlock := true })

/-- R203's first sentence: a command that ends in an error leaves all nine result registers as they were. -/
def Obligations.ErrorsKeepEveryResult : Prop :=
  ∀ (i : Instr) (s t : State), isCommand i = true → exec i s = .next t → t.block.err ≠ 0 →
    resultRegs t.block = resultRegs s.block

/-- R42, over all instructions: each flag has the one writer R42 names, ERR changes in commands alone, and a read changes
none. A locked coefficient write is the one way WLOCK changes. -/
def Obligations.EveryFlagHasItsWriter : Prop :=
  ∀ (i : Instr) (s t : State), i.wf = true → exec i s = .next t →
    (t.block.calValid ≠ s.block.calValid → i = .calValidate) ∧
    (t.block.ptValid ≠ s.block.ptValid → i = .ptConvert) ∧
    (t.block.htValid ≠ s.block.htValid → i = .htDecode) ∧
    (t.block.altValid ≠ s.block.altValid → i = .altCompute) ∧
    (t.block.tCrcOk ≠ s.block.tCrcOk ∨ t.block.hCrcOk ≠ s.block.hCrcOk → i = .htDecode) ∧
    (t.block.wlock ≠ s.block.wlock → t.block.wlock = true ∧ s.block.calValid = true ∧
      ∃ (k : Fin 7) (d : Word), i = .regWrite (BitVec.ofNat 6 (4 + k.val)) d) ∧
    (t.block.err ≠ s.block.err → isCommand i = true)

/-- R21, R30 and R73, over all instructions: an input register changes only in a host write to its own index, a result
register and the CRC fields only in their command, and a read writes nothing of the block. -/
def Obligations.EveryRegisterHasItsWriter : Prop :=
  ∀ (i : Instr) (s t : State), i.wf = true → exec i s = .next t →
    (∀ k : Fin 7, t.block.coef[k] ≠ s.block.coef[k] → ∃ d, i = .regWrite (BitVec.ofNat 6 (4 + k.val)) d) ∧
    (t.block.d1 ≠ s.block.d1 → ∃ d, i = .regWrite 12 d) ∧
    (t.block.d2 ≠ s.block.d2 → ∃ d, i = .regWrite 13 d) ∧
    (∀ k : Fin 6, t.block.frame[k] ≠ s.block.frame[k] → ∃ d, i = .regWrite (BitVec.ofNat 6 (14 + k.val)) d) ∧
    (t.block.baseline ≠ s.block.baseline → ∃ d, i = .regWrite 20 d) ∧
    (t.block.crc4Calc ≠ s.block.crc4Calc ∨ t.block.crc4Stored ≠ s.block.crc4Stored → i = .calValidate) ∧
    (t.block.crc8T ≠ s.block.crc8T ∨ t.block.crc8H ≠ s.block.crc8H → i = .htDecode) ∧
    (t.block.tempI ≠ s.block.tempI ∨ t.block.presI ≠ s.block.presI ∨ t.block.tempF ≠ s.block.tempF ∨
      t.block.presF ≠ s.block.presF → i = .ptConvert) ∧
    (t.block.htTempN ≠ s.block.htTempN ∨ t.block.htHumN ≠ s.block.htHumN ∨ t.block.htTempF ≠ s.block.htTempF ∨
      t.block.htHumF ≠ s.block.htHumF → i = .htDecode) ∧
    (t.block.altF ≠ s.block.altF → i = .altCompute) ∧
    (t.response ≠ s.response → ∃ a d, i = .regRead a d ∧ t.block = s.block)

/-- R27 and R230, over all steps: WLOCK is cleared by a reset alone. -/
def Obligations.OnlyResetClearsWlock : Prop :=
  ∀ s t : State, step s = .next t → s.block.wlock = true → t.block.wlock = false →
    ∃ rest, s.pending = .reset :: rest

/-! ## Encoding (30_encoding.md) -/

/-- Decode and encode agree on every well-formed instruction (R71, R75, R76). -/
def Obligations.DecodeOfEncode : Prop := ∀ i : Instr, i.wf = true → decode (encode i) = .ok i

/-- Every record that decodes is the record of a well-formed instruction, so no bit of a record is dropped. That a
REG_READ keeps its ignored D field is the model's choice (notes/assumptions/9.md). -/
def Obligations.EncodeOfDecode : Prop :=
  ∀ (r : Record) (i : Instr), decode r = .ok i → i.wf = true ∧ encode i = r

/-- R76's order on the bits of any record, and R77 item 1: OP = 01 and OP = 11 spell no transaction, and the machine
refuses the record. -/
def Obligations.DecodingOrder : Prop :=
  ∀ r : Record,
    let op := r.extractLsb' 38 2
    let a := r.extractLsb' 32 6
    let d := r.extractLsb' 0 32
    (op = 0b00 → decode r = .ok (.regRead a d)) ∧
    (op = 0b10 → a ≠ 0 → decode r = .ok (.regWrite a d)) ∧
    (op = 0b10 → a = 0 → d = 0x00000001 → decode r = .ok .calValidate) ∧
    (op = 0b10 → a = 0 → d = 0x00000002 → decode r = .ok .ptConvert) ∧
    (op = 0b10 → a = 0 → d = 0x00000003 → decode r = .ok .htDecode) ∧
    (op = 0b10 → a = 0 → d = 0x00000004 → decode r = .ok .altCompute) ∧
    (op = 0b10 → a = 0 → ¬(d = 1 ∨ d = 2 ∨ d = 3 ∨ d = 4) → decode r = .ok (.illegalCmd d)) ∧
    (op = 0b01 ∨ op = 0b11 → decode r = .error (.reservedOp op) ∧
      ∀ (s : State) (rest : List HostEvent), s.pending = .record r :: rest →
        step s = .refused (.reservedRecord op))

/-- A word of every family, bit for bit from the spec's encoding, decodes to its instruction. -/
def Obligations.SampleWordsDecode : Prop :=
  decode 0b0000000100000000000000000000000000000000 = .ok (.regRead 1 0) ∧
  decode 0b1000110000000000011000110010111010100000 = .ok (.regWrite 12 6500000) ∧
  decode 0b1000000000000000000000000000000000000001 = .ok .calValidate ∧
  decode 0b1000000000000000000000000000000000000010 = .ok .ptConvert ∧
  decode 0b1000000000000000000000000000000000000011 = .ok .htDecode ∧
  decode 0b1000000000000000000000000000000000000100 = .ok .altCompute ∧
  decode 0b1000000000000000000000000000000100000001 = .ok (.illegalCmd 0x101)

/-- R81: each statement of a host program is the record of the transaction it spells. -/
def Obligations.StatementsAreTheirRecords : Prop :=
  (∀ a : RegIndex, (AsmTransaction.rd a).record = (0b00#2 ++ a).setWidth 40 <<< 32 ∧
    (AsmTransaction.rd a).record = encode (.regRead a 0)) ∧
  (∀ (a : RegIndex) (v : AsmValue),
    (AsmTransaction.wr a v).record = ((0b10#2 ++ a).setWidth 40 <<< 32) ||| v.word.setWidth 40) ∧
  (∀ (a : RegIndex) (v : AsmValue), a ≠ 0 → (AsmTransaction.wr a v).record = encode (.regWrite a v.word)) ∧
  (∀ v : AsmValue, (AsmTransaction.wr 0 v).record = encode (decodeCommand v.word)) ∧
  (AsmTransaction.wr RegName.d1.index (.int 6500000)).record = 0x8C00632EA0 ∧
  (AsmTransaction.rd RegName.status.index).record = 0x0100000000

/-- R80's table: every pseudo-instruction is its expansion. -/
def Obligations.PseudoInstructionsExpand : Prop :=
  AsmStatement.calValidate.records = [0x8000000001] ∧ AsmStatement.ptConvert.records = [0x8000000002] ∧
  AsmStatement.htDecode.records = [0x8000000003] ∧ AsmStatement.altCompute.records = [0x8000000004] ∧
  (∀ c0 c1 c2 c3 c4 c5 c6 : AsmValue, (AsmStatement.ldCoef #v[c0, c1, c2, c3, c4, c5, c6]).expand =
    [.wr 4 c0, .wr 5 c1, .wr 6 c2, .wr 7 c3, .wr 8 c4, .wr 9 c5, .wr 10 c6]) ∧
  (∀ v1 v2 : AsmValue, (AsmStatement.ldRaw v1 v2).expand = [.wr 12 v1, .wr 13 v2]) ∧
  (∀ b0 b1 b2 b3 b4 b5 : AsmValue, (AsmStatement.ldFrame #v[b0, b1, b2, b3, b4, b5]).expand =
    [.wr 14 b0, .wr 15 b1, .wr 16 b2, .wr 17 b3, .wr 18 b4, .wr 19 b5])

/-! ## The machine (20_memory.md, 70_reset_and_hazards.md) -/

/-- A step runs the instruction that the next delivered record decodes to, with nothing around it but that the event is
taken off the pending list and that nothing has been returned yet (notes/assumptions/1.md, notes/assumptions/2.md). -/
def Obligations.StepRunsTheDecodedInstruction : Prop :=
  ∀ (s : State) (r : Record) (rest : List HostEvent) (i : Instr),
    s.pending = .record r :: rest → decode r = .ok i →
    step s = exec i { s with pending := rest, response := none }

/-- R51 and R54: an aligned 4-byte access to byte address BLOCK_BASE + 4 × i is the transaction on word i;
BLOCK_BASE is a multiple of 256; any other access to the window's 256 bytes has no step (stuck). That stuck is the named
fault inadmissibleAccess is the model's choice (notes/assumptions/4.md), and so are the list the access comes from and the
response it starts without (notes/assumptions/1.md, notes/assumptions/2.md). A write to word 0 carries a command word
(R92). -/
def Obligations.BusAccessesOfTheWindow : Prop :=
  Config.blockBase % 256 = 0 ∧
  (∀ (s : State) (a : RegIndex) (rest : List HostEvent),
    s.pending = .busRead (Config.blockBase + 4 * a.toNat) 4 :: rest →
    step s = exec (.regRead a 0) { s with pending := rest, response := none }) ∧
  (∀ (s : State) (a : RegIndex) (d : Word) (rest : List HostEvent),
    s.pending = .busWrite (Config.blockBase + 4 * a.toNat) 4 d :: rest →
    step s = exec (.regWrite a d) { s with pending := rest, response := none }) ∧
  (∀ (s : State) (addr size : Nat) (d : Word) (rest : List HostEvent),
    Config.blockBase ≤ addr → addr < Config.blockBase + 256 → (addr % 4 ≠ 0 ∨ size ≠ 4) →
    s.pending = .busRead addr size :: rest ∨ s.pending = .busWrite addr size d :: rest →
    step s = .fault (.inadmissibleAccess addr size))

/-- The model's choice (notes/assumptions/5.md): an access outside the window is refused, whatever its alignment and size.
R57 says nothing of the rest of the host's address space. -/
def Obligations.AccessesOutsideTheWindowAreRefused : Prop :=
  ∀ (s : State) (addr size : Nat) (d : Word) (rest : List HostEvent),
    (addr < Config.blockBase ∨ Config.blockBase + 256 ≤ addr) →
    s.pending = .busRead addr size :: rest ∨ s.pending = .busWrite addr size d :: rest →
    step s = .refused (.outsideWindow addr)

/-- R44, whole: every component of the record is 0 after reset, so the store is unlocked and every result is marked not
valid. The values of the model's own two fields at reset are its choice (notes/assumptions/1.md, 2.md) and not stated. -/
def Obligations.ResetClearsEveryComponent : Prop :=
  let b := State.reset.block
  (∀ i : Fin 7, b.coef[i] = 0) ∧ b.d1 = 0 ∧ b.d2 = 0 ∧ (∀ k : Fin 6, b.frame[k] = 0) ∧ b.baseline = 0 ∧
  b.calValid = false ∧ b.ptValid = false ∧ b.htValid = false ∧ b.altValid = false ∧ b.tCrcOk = false ∧
  b.hCrcOk = false ∧ b.wlock = false ∧ b.err = 0 ∧ b.crc4Calc = 0 ∧ b.crc4Stored = 0 ∧ b.crc8T = 0 ∧ b.crc8H = 0 ∧
  b.tempI = 0 ∧ b.presI = 0 ∧ b.htTempN = 0 ∧ b.htHumN = 0 ∧ b.tempF = 0x00000000 ∧ b.presF = 0x00000000 ∧
  b.htTempF = 0x00000000 ∧ b.htHumF = 0x00000000 ∧ b.altF = 0x00000000

/-- R230: the reset event takes the whole record to its reset values, from any state, and unlocks the table. That what is
still to be delivered stays pending is the model's choice (notes/assumptions/15.md). -/
def Obligations.ResetEventTakesTheResetValues : Prop :=
  ∀ (s : State) (rest : List HostEvent), s.pending = .reset :: rest →
    step s = .next { block := State.reset.block, pending := rest, response := none }

/-- R20 and R231: with nothing delivered the block is idle. That an idle step answers the unchanged state is the model's
choice (notes/assumptions/3.md). -/
def Obligations.IdleBlockKeepsItsState : Prop := ∀ s : State, s.pending = [] → step s = .next s

/-- R212, R204 and R126, over whole runs: every transaction is permitted at all times, so a run over the records of
well-formed instructions, byte-addressed word accesses to the window, and resets never stops. That the run goes on past the
last pending event rests on the model's choice of an idle step (notes/assumptions/3.md), and that its events are the list
`pending` on notes/assumptions/1.md. -/
def Obligations.AdmittedRunsNeverStop : Prop :=
  ∀ (n : Nat) (s : State),
    (∀ e ∈ s.pending, e = .reset ∨ (∃ i : Instr, i.wf = true ∧ e = .record (encode i)) ∨
      (∃ a : RegIndex, e = .busRead (Config.blockBase + 4 * a.toNat) 4) ∨
      (∃ (a : RegIndex) (d : Word), e = .busWrite (Config.blockBase + 4 * a.toNat) 4 d)) →
    ∃ t, Host.Core.run Sys2Proof.core n s = .next t

/-- The invariant holds right after reset. -/
def Obligations.ResetSatisfiesTheInvariant : Prop := State.reset.Inv

/-- Every step keeps the invariant: ERR stays a produced code, a locked table stays valid, the validity flags stay in
order, every float stays the rounding of its integer, and every result stays in its range (R104, R131, R168, R200). -/
def Obligations.StepKeepsTheInvariant : Prop := ∀ s t : State, s.Inv → step s = .next t → t.Inv

/-- R1 and R59 ("No shared mutable state exists between the two converters"), over whole runs: with the same events
delivered, what is the compensator's alone never depends on what is the decoder's alone, nor the other way round. -/
def Obligations.ConvertersDoNotInterfere : Prop :=
  ∀ (n : Nat) (s₁ s₂ t₁ t₂ : State), s₁.pending = s₂.pending →
    Host.Core.run Sys2Proof.core n s₁ = .next t₁ → Host.Core.run Sys2Proof.core n s₂ = .next t₂ →
    (compensatorShare s₁.block = compensatorShare s₂.block →
      compensatorShare t₁.block = compensatorShare t₂.block) ∧
    (decoderShare s₁.block = decoderShare s₂.block → decoderShare t₁.block = decoderShare t₂.block)
end

