-- ==== Sys2Proof/Laws/Binary32.lean ====
section
/-!
SUPPORT. What the steps of the binary32 rounding do, said once (R13).
-/

namespace Sys2Proof.Machine

/-- The rounded quotient is within half of `b` of `a / b`, and even where it is exactly half away. -/
theorem roundDivEven_spec (a b : Nat) (hb : 0 < b) :
    2 * (roundDivEven a b * b) ≤ 2 * a + b ∧ 2 * a ≤ 2 * (roundDivEven a b * b) + b ∧
      ((2 * a = 2 * (roundDivEven a b * b) + b ∨ 2 * (roundDivEven a b * b) = 2 * a + b) →
        roundDivEven a b % 2 = 0) := by
  have hd : b * (a / b) + a % b = a := Nat.div_add_mod a b
  have hr : a % b < b := Nat.mod_lt a hb
  have hm : (a / b + 1) * b = b * (a / b) + b := by ring
  have hq : a / b * b = b * (a / b) := by ring
  unfold roundDivEven
  dsimp only
  split
  · rw [hq]; refine ⟨by omega, by omega, fun h => ?_⟩; omega
  · split
    · rw [hm]; refine ⟨by omega, by omega, fun h => ?_⟩; omega
    · rcases Nat.mod_two_eq_zero_or_one (a / b) with h2 | h2
      · rw [h2, Nat.add_zero, hq]; exact ⟨by omega, by omega, fun _ => h2⟩
      · rw [h2, hm]; exact ⟨by omega, by omega, fun _ => by omega⟩

/-- Scaled by the powers of two that clear its sign, `floorLog2` brackets the quotient. -/
theorem floorLog2_spec (n d : Nat) (hn : 0 < n) (hd : 0 < d) :
    (2 : ℚ) ^ floorLog2 n d ≤ (n : ℚ) / d ∧ (n : ℚ) / d < (2 : ℚ) ^ (floorLog2 n d + 1) := by
  have hd' : (0 : ℚ) < d := by exact_mod_cast hd
  have n1 : (2 : ℚ) ^ n.log2 ≤ n := by exact_mod_cast Nat.log2_self_le hn.ne'
  have n2 : (n : ℚ) < 2 ^ (n.log2 + 1) := by exact_mod_cast Nat.lt_log2_self
  have d1 : (2 : ℚ) ^ d.log2 ≤ d := by exact_mod_cast Nat.log2_self_le hd.ne'
  have d2 : (d : ℚ) < 2 ^ (d.log2 + 1) := by exact_mod_cast Nat.lt_log2_self
  have key : ∀ k : Int, (d * 2 ^ k.toNat ≤ n * 2 ^ (-k).toNat ↔ (2 : ℚ) ^ k ≤ (n : ℚ) / d) := by
    intro k
    rw [le_div_iff₀ hd', ← Nat.cast_le (α := ℚ)]
    push_cast
    rcases le_total 0 k with h | h
    · obtain ⟨m, rfl⟩ := Int.eq_ofNat_of_zero_le h
      simp [mul_comm]
    · obtain ⟨m, hm⟩ := Int.eq_ofNat_of_zero_le (by omega : 0 ≤ -k)
      obtain rfl : k = -(m : Int) := by omega
      simp only [zpow_neg, zpow_natCast]
      rw [inv_mul_le_iff₀ (by positivity)]
      simp [mul_comm]
  have up : (n : ℚ) / d < (2 : ℚ) ^ ((n.log2 : Int) - d.log2 + 1) := by
    rw [div_lt_iff₀ hd']
    calc (n : ℚ) < 2 ^ (n.log2 + 1) := n2
      _ = (2 : ℚ) ^ ((n.log2 : Int) - d.log2 + 1) * 2 ^ d.log2 := by
        rw [← zpow_natCast, ← zpow_natCast, ← zpow_add₀ two_ne_zero]; congr 1; push_cast; ring
      _ ≤ _ := by gcongr
  have low : (2 : ℚ) ^ ((n.log2 : Int) - d.log2 - 1) ≤ (n : ℚ) / d := by
    rw [le_div_iff₀ hd']
    calc (2 : ℚ) ^ ((n.log2 : Int) - d.log2 - 1) * d
        ≤ (2 : ℚ) ^ ((n.log2 : Int) - d.log2 - 1) * 2 ^ (d.log2 + 1) := by gcongr
      _ = 2 ^ n.log2 := by
        rw [← zpow_natCast, ← zpow_natCast, ← zpow_add₀ two_ne_zero]; congr 1; push_cast; ring
      _ ≤ n := n1
  unfold floorLog2
  dsimp only
  split
  · next h => exact ⟨(key _).1 h, up⟩
  · next h => exact ⟨low, by rw [sub_add_cancel]; exact not_le.1 fun hc => h ((key _).2 hc)⟩

@[simp] theorem f32_zero (d : Nat) : f32 0 d = 0 := by
  simp [f32, f32Magnitude]

end Sys2Proof.Machine
end

