-- ==== Sys2Proof/Laws/Checksum.lean ====
section
/-!
SUPPORT. What the checksum operations do, said once (R100, R101, R160).
-/

namespace Sys2Proof.Machine

theorem crcBit_of_msb {w : Nat} {poly rem : BitVec w} (h : rem.msb = true) :
    crcBit poly rem = (rem <<< 1) ^^^ poly := by simp [crcBit, h]

theorem crcBit_of_not_msb {w : Nat} {poly rem : BitVec w} (h : rem.msb = false) :
    crcBit poly rem = rem <<< 1 := by simp [crcBit, h]

@[simp] theorem crc8_nil : crc8 [] = 0xFF := rfl

theorem crc8_append_byte (s : List Byte) (x : Byte) : crc8 (s ++ [x]) = crcByte 0x31 (crc8 s) x := by
  simp [crc8]

theorem crc4Remainder_append_byte (s : List Byte) (x : Byte) :
    crc4Remainder (s ++ [x]) = crcByte 0x3000 (crc4Remainder s) x := by simp [crc4Remainder]

theorem crc4Stream_length (C : CoefTable) : (crc4Stream C).length = 16 := rfl

theorem tableValid_iff (C : CoefTable) : tableValid C = true ↔ crc4 C = storedChecksum C := by simp [tableValid]

end Sys2Proof.Machine
end

