-- ==== Sys2Proof/Laws/State.lean ====
section
/-!
SUPPORT. One lemma per field for each named update of the block and of the machine.
-/

namespace Sys2Proof.Machine

/-! Ending a command writes ERR and nothing else (R12, R201). -/

@[simp] theorem Block.raise_coef (e : CmdOutcome) (b : Block) : (Block.raise e b).coef = b.coef := rfl
@[simp] theorem Block.raise_d1 (e : CmdOutcome) (b : Block) : (Block.raise e b).d1 = b.d1 := rfl
@[simp] theorem Block.raise_d2 (e : CmdOutcome) (b : Block) : (Block.raise e b).d2 = b.d2 := rfl
@[simp] theorem Block.raise_frame (e : CmdOutcome) (b : Block) : (Block.raise e b).frame = b.frame := rfl
@[simp] theorem Block.raise_baseline (e : CmdOutcome) (b : Block) : (Block.raise e b).baseline = b.baseline := rfl
@[simp] theorem Block.raise_calValid (e : CmdOutcome) (b : Block) : (Block.raise e b).calValid = b.calValid := rfl
@[simp] theorem Block.raise_ptValid (e : CmdOutcome) (b : Block) : (Block.raise e b).ptValid = b.ptValid := rfl
@[simp] theorem Block.raise_htValid (e : CmdOutcome) (b : Block) : (Block.raise e b).htValid = b.htValid := rfl
@[simp] theorem Block.raise_altValid (e : CmdOutcome) (b : Block) : (Block.raise e b).altValid = b.altValid := rfl
@[simp] theorem Block.raise_tCrcOk (e : CmdOutcome) (b : Block) : (Block.raise e b).tCrcOk = b.tCrcOk := rfl
@[simp] theorem Block.raise_hCrcOk (e : CmdOutcome) (b : Block) : (Block.raise e b).hCrcOk = b.hCrcOk := rfl
@[simp] theorem Block.raise_wlock (e : CmdOutcome) (b : Block) : (Block.raise e b).wlock = b.wlock := rfl
@[simp] theorem Block.raise_err (e : CmdOutcome) (b : Block) : (Block.raise e b).err = errCode e := rfl
@[simp] theorem Block.raise_crc4Calc (e : CmdOutcome) (b : Block) : (Block.raise e b).crc4Calc = b.crc4Calc := rfl
@[simp] theorem Block.raise_crc4Stored (e : CmdOutcome) (b : Block) : (Block.raise e b).crc4Stored = b.crc4Stored := rfl
@[simp] theorem Block.raise_crc8T (e : CmdOutcome) (b : Block) : (Block.raise e b).crc8T = b.crc8T := rfl
@[simp] theorem Block.raise_crc8H (e : CmdOutcome) (b : Block) : (Block.raise e b).crc8H = b.crc8H := rfl
@[simp] theorem Block.raise_tempI (e : CmdOutcome) (b : Block) : (Block.raise e b).tempI = b.tempI := rfl
@[simp] theorem Block.raise_presI (e : CmdOutcome) (b : Block) : (Block.raise e b).presI = b.presI := rfl
@[simp] theorem Block.raise_tempF (e : CmdOutcome) (b : Block) : (Block.raise e b).tempF = b.tempF := rfl
@[simp] theorem Block.raise_presF (e : CmdOutcome) (b : Block) : (Block.raise e b).presF = b.presF := rfl
@[simp] theorem Block.raise_htTempN (e : CmdOutcome) (b : Block) : (Block.raise e b).htTempN = b.htTempN := rfl
@[simp] theorem Block.raise_htHumN (e : CmdOutcome) (b : Block) : (Block.raise e b).htHumN = b.htHumN := rfl
@[simp] theorem Block.raise_htTempF (e : CmdOutcome) (b : Block) : (Block.raise e b).htTempF = b.htTempF := rfl
@[simp] theorem Block.raise_htHumF (e : CmdOutcome) (b : Block) : (Block.raise e b).htHumF = b.htHumF := rfl
@[simp] theorem Block.raise_altF (e : CmdOutcome) (b : Block) : (Block.raise e b).altF = b.altF := rfl

@[simp] theorem Block.succeed_coef (b : Block) : (Block.succeed b).coef = b.coef := rfl
@[simp] theorem Block.succeed_d1 (b : Block) : (Block.succeed b).d1 = b.d1 := rfl
@[simp] theorem Block.succeed_d2 (b : Block) : (Block.succeed b).d2 = b.d2 := rfl
@[simp] theorem Block.succeed_frame (b : Block) : (Block.succeed b).frame = b.frame := rfl
@[simp] theorem Block.succeed_baseline (b : Block) : (Block.succeed b).baseline = b.baseline := rfl
@[simp] theorem Block.succeed_calValid (b : Block) : (Block.succeed b).calValid = b.calValid := rfl
@[simp] theorem Block.succeed_ptValid (b : Block) : (Block.succeed b).ptValid = b.ptValid := rfl
@[simp] theorem Block.succeed_htValid (b : Block) : (Block.succeed b).htValid = b.htValid := rfl
@[simp] theorem Block.succeed_altValid (b : Block) : (Block.succeed b).altValid = b.altValid := rfl
@[simp] theorem Block.succeed_tCrcOk (b : Block) : (Block.succeed b).tCrcOk = b.tCrcOk := rfl
@[simp] theorem Block.succeed_hCrcOk (b : Block) : (Block.succeed b).hCrcOk = b.hCrcOk := rfl
@[simp] theorem Block.succeed_wlock (b : Block) : (Block.succeed b).wlock = b.wlock := rfl
@[simp] theorem Block.succeed_err (b : Block) : (Block.succeed b).err = 0 := rfl
@[simp] theorem Block.succeed_crc4Calc (b : Block) : (Block.succeed b).crc4Calc = b.crc4Calc := rfl
@[simp] theorem Block.succeed_crc4Stored (b : Block) : (Block.succeed b).crc4Stored = b.crc4Stored := rfl
@[simp] theorem Block.succeed_crc8T (b : Block) : (Block.succeed b).crc8T = b.crc8T := rfl
@[simp] theorem Block.succeed_crc8H (b : Block) : (Block.succeed b).crc8H = b.crc8H := rfl
@[simp] theorem Block.succeed_tempI (b : Block) : (Block.succeed b).tempI = b.tempI := rfl
@[simp] theorem Block.succeed_presI (b : Block) : (Block.succeed b).presI = b.presI := rfl
@[simp] theorem Block.succeed_tempF (b : Block) : (Block.succeed b).tempF = b.tempF := rfl
@[simp] theorem Block.succeed_presF (b : Block) : (Block.succeed b).presF = b.presF := rfl
@[simp] theorem Block.succeed_htTempN (b : Block) : (Block.succeed b).htTempN = b.htTempN := rfl
@[simp] theorem Block.succeed_htHumN (b : Block) : (Block.succeed b).htHumN = b.htHumN := rfl
@[simp] theorem Block.succeed_htTempF (b : Block) : (Block.succeed b).htTempF = b.htTempF := rfl
@[simp] theorem Block.succeed_htHumF (b : Block) : (Block.succeed b).htHumF = b.htHumF := rfl
@[simp] theorem Block.succeed_altF (b : Block) : (Block.succeed b).altF = b.altF := rfl

/-! Every component of the reset record is 0 (R44). -/

@[simp] theorem Block.reset_coef : Block.reset.coef = #v[0, 0, 0, 0, 0, 0, 0] := rfl
@[simp] theorem Block.reset_d1 : Block.reset.d1 = 0 := rfl
@[simp] theorem Block.reset_d2 : Block.reset.d2 = 0 := rfl
@[simp] theorem Block.reset_frame : Block.reset.frame = #v[0, 0, 0, 0, 0, 0] := rfl
@[simp] theorem Block.reset_baseline : Block.reset.baseline = 0 := rfl
@[simp] theorem Block.reset_calValid : Block.reset.calValid = false := rfl
@[simp] theorem Block.reset_ptValid : Block.reset.ptValid = false := rfl
@[simp] theorem Block.reset_htValid : Block.reset.htValid = false := rfl
@[simp] theorem Block.reset_altValid : Block.reset.altValid = false := rfl
@[simp] theorem Block.reset_tCrcOk : Block.reset.tCrcOk = false := rfl
@[simp] theorem Block.reset_hCrcOk : Block.reset.hCrcOk = false := rfl
@[simp] theorem Block.reset_wlock : Block.reset.wlock = false := rfl
@[simp] theorem Block.reset_err : Block.reset.err = 0 := rfl
@[simp] theorem Block.reset_crc4Calc : Block.reset.crc4Calc = 0 := rfl
@[simp] theorem Block.reset_crc4Stored : Block.reset.crc4Stored = 0 := rfl
@[simp] theorem Block.reset_crc8T : Block.reset.crc8T = 0 := rfl
@[simp] theorem Block.reset_crc8H : Block.reset.crc8H = 0 := rfl
@[simp] theorem Block.reset_tempI : Block.reset.tempI = 0 := rfl
@[simp] theorem Block.reset_presI : Block.reset.presI = 0 := rfl
@[simp] theorem Block.reset_tempF : Block.reset.tempF = 0 := rfl
@[simp] theorem Block.reset_presF : Block.reset.presF = 0 := rfl
@[simp] theorem Block.reset_htTempN : Block.reset.htTempN = 0 := rfl
@[simp] theorem Block.reset_htHumN : Block.reset.htHumN = 0 := rfl
@[simp] theorem Block.reset_htTempF : Block.reset.htTempF = 0 := rfl
@[simp] theorem Block.reset_htHumF : Block.reset.htHumF = 0 := rfl
@[simp] theorem Block.reset_altF : Block.reset.altF = 0 := rfl

/-! The updates of the machine. -/

@[simp] theorem State.withBlock_block (s : State) (b : Block) : (s.withBlock b).block = b := rfl
@[simp] theorem State.withBlock_pending (s : State) (b : Block) : (s.withBlock b).pending = s.pending := rfl
@[simp] theorem State.withBlock_response (s : State) (b : Block) : (s.withBlock b).response = s.response := rfl
@[simp] theorem State.respond_block (s : State) (v : Word) : (s.respond v).block = s.block := rfl
@[simp] theorem State.respond_pending (s : State) (v : Word) : (s.respond v).pending = s.pending := rfl
@[simp] theorem State.respond_response (s : State) (v : Word) : (s.respond v).response = some v := rfl
@[simp] theorem State.accept_block (s : State) (rest : List HostEvent) : (s.accept rest).block = s.block := rfl
@[simp] theorem State.accept_pending (s : State) (rest : List HostEvent) : (s.accept rest).pending = rest := rfl
@[simp] theorem State.accept_response (s : State) (rest : List HostEvent) : (s.accept rest).response = none := rfl
@[simp] theorem State.takeReset_block (s : State) : (s.takeReset).block = Block.reset := rfl
@[simp] theorem State.takeReset_pending (s : State) : (s.takeReset).pending = s.pending := rfl
@[simp] theorem State.takeReset_response (s : State) : (s.takeReset).response = s.response := rfl
@[simp] theorem placeNext_block (s : State) (r : Record) : (placeNext s r).block = s.block := rfl
@[simp] theorem placeNext_pending (s : State) (r : Record) : (placeNext s r).pending = .record r :: s.pending := rfl
@[simp] theorem placeNext_response (s : State) (r : Record) : (placeNext s r).response = s.response := rfl
@[simp] theorem State.reset_block : State.reset.block = Block.reset := rfl
@[simp] theorem State.reset_pending : State.reset.pending = [] := rfl
@[simp] theorem State.reset_response : State.reset.response = none := rfl

end Sys2Proof.Machine
end

