-- ==== Sys2Proof/Laws/Commands.lean ====
section
/-!
SUPPORT. What each command can do to the block, said once: the whole block after it, case by case.
-/

namespace Sys2Proof.Machine

/-- CAL_VALIDATE passes or fails, and records both checksums either way (R103). -/
theorem calValidate_cases (b : Block) :
    (tableValid b.coef = true ∧ calValidate b =
      { b with crc4Calc := crc4 b.coef, crc4Stored := storedChecksum b.coef, calValid := true, err := 0 }) ∨
    (tableValid b.coef = false ∧ calValidate b =
      { b with crc4Calc := crc4 b.coef, crc4Stored := storedChecksum b.coef, calValid := false, err := 1 }) := by
  cases h : tableValid b.coef <;> simp [calValidate, h, Block.succeed, Block.raise, errCode]

/-- PT_CONVERT writes both results, or only clears PT_VALID and reports (R135). -/
theorem ptConvert_cases (b : Block) :
    (b.calValid = true ∧ ptConvert b =
      { b with
        tempI := BitVec.ofInt 32 (compensate b.coef b.d1 b.d2).1
        presI := BitVec.ofInt 32 (compensate b.coef b.d1 b.d2).2
        tempF := f32 (compensate b.coef b.d1 b.d2).1 100
        presF := f32 (compensate b.coef b.d1 b.d2).2 100
        ptValid := true, err := 0 }) ∨
    (b.calValid = false ∧ ptConvert b = { b with ptValid := false, err := 2 }) := by
  cases h : b.calValid <;> simp [ptConvert, h, Block.succeed, Block.raise, errCode]

/-- HT_DECODE writes both results where both halves pass, or only clears HT_VALID and reports (R175). -/
theorem htDecode_cases (b : Block) :
    ((crc8Temp b.frame = b.frame[2] ∧ crc8Hum b.frame = b.frame[5]) ∧ htDecode b =
      { b with
        crc8T := crc8Temp b.frame, crc8H := crc8Hum b.frame, tCrcOk := true, hCrcOk := true
        htTempN := BitVec.ofInt 32 (htTempNumerator (rawTemp b.frame))
        htHumN := BitVec.ofInt 32 (htHumNumerator (rawHum b.frame))
        htTempF := f32 (htTempNumerator (rawTemp b.frame)) 65535
        htHumF := f32 (htHumNumerator (rawHum b.frame)) 65535
        htValid := true, err := 0 }) ∨
    (¬(crc8Temp b.frame = b.frame[2] ∧ crc8Hum b.frame = b.frame[5]) ∧ htDecode b =
      { b with
        crc8T := crc8Temp b.frame, crc8H := crc8Hum b.frame
        tCrcOk := crc8Temp b.frame == b.frame[2], hCrcOk := crc8Hum b.frame == b.frame[5]
        htValid := false, err := 3 }) := by
  by_cases h : crc8Temp b.frame = b.frame[2] ∧ crc8Hum b.frame = b.frame[5]
  · exact .inl ⟨h, by simp [htDecode, h.1, h.2, Block.succeed, errCode]⟩
  · refine .inr ⟨h, ?_⟩
    have hc : ((crc8Temp b.frame == b.frame[2]) && (crc8Hum b.frame == b.frame[5])) = false := by
      simpa using h
    simp only [htDecode, hc]
    rfl

/-- ALT_COMPUTE evaluates, or only clears ALT_VALID and reports the first gate that failed (R153). -/
theorem altCompute_cases (b : Block) :
    (b.ptValid = false ∧ altCompute b = { b with altValid := false, err := 5 }) ∨
    (b.ptValid = true ∧ admissible b.baseline = false ∧ altCompute b = { b with altValid := false, err := 4 }) ∨
    (b.ptValid = true ∧ admissible b.baseline = true ∧ altCompute b =
      { b with altF := altFn b.presF b.baseline, altValid := true, err := 0 }) := by
  cases h : b.ptValid <;> cases h' : admissible b.baseline <;>
    simp [altCompute, h, h', Block.succeed, Block.raise, errCode]

/-- ILLEGAL_CMD writes ERR (R94). -/
theorem illegalCmd_eq (b : Block) : illegalCmd b = { b with err := 6 } := rfl

/-- AF1 (R151), for every value of the open function. -/
theorem altFn_self (b : Word) (hf : isFinite32 b = true) (hz : b.extractLsb' 0 31 ≠ 0) : altFn b b = 0 :=
  if_pos ⟨rfl, hf, hz⟩

end Sys2Proof.Machine
end

