-- ==== Sys2Proof/Laws/Compensation.lean ====
section
/-!
SUPPORT. What the arithmetic of the compensation does, said once (R11, R124).
-/

namespace Sys2Proof.Machine

/-- `>>` is the floor of the quotient (R11). -/
theorem asr_eq_div (a : Int) (k : Nat) : asr a k = a / 2 ^ k := by
  simp [asr, Int.shiftRight_eq_div_pow]

/-- `tdiv` truncates toward zero (R11). -/
theorem tdiv_eq_sign_mul (a b : Int) : tdiv a b = a.sign * b.sign * ((a.natAbs / b.natAbs : Nat) : Int) := by
  unfold tdiv
  obtain ⟨m, rfl | rfl⟩ := Int.eq_nat_or_neg a <;> obtain ⟨n, rfl | rfl⟩ := Int.eq_nat_or_neg b <;>
    rcases Nat.eq_zero_or_pos m with rfl | hm <;> rcases Nat.eq_zero_or_pos n with rfl | hn <;>
    simp [Int.neg_tdiv, Int.tdiv_neg, Int.sign_natCast_of_ne_zero, *, Nat.pos_iff_ne_zero.1]

/-- No correction from 2000 up, the first branch down to −1500, both below (R124). -/
theorem corrections_cases (dT temp1 : Int) :
    (2000 ≤ temp1 ∧ corrections dT temp1 = (0, 0, 0)) ∨
      (-1500 ≤ temp1 ∧ temp1 < 2000 ∧ corrections dT temp1 =
        (asr (dT * dT) 31, tdiv (5 * (temp1 - 2000) ^ 2) 2, tdiv (5 * (temp1 - 2000) ^ 2) 4)) ∨
      (temp1 < -1500 ∧ corrections dT temp1 =
        (asr (dT * dT) 31, tdiv (5 * (temp1 - 2000) ^ 2) 2 + 7 * (temp1 + 1500) ^ 2,
          tdiv (5 * (temp1 - 2000) ^ 2) 4 + tdiv (11 * (temp1 + 1500) ^ 2) 2)) := by
  unfold corrections
  by_cases h : temp1 < 2000
  · by_cases h' : temp1 < -1500
    · exact .inr (.inr ⟨h', by simp [h, h']⟩)
    · exact .inr (.inl ⟨by omega, h, by simp [h, h']⟩)
  · exact .inl ⟨by omega, by simp [h]⟩

end Sys2Proof.Machine
end

