-- ==== Sys2Proof/Laws/Ops.lean ====
section
/-!
SUPPORT. What each shared operation of the machine can do, said once.
-/

namespace Sys2Proof

theorem RegName.ofIndex_index (r : RegName) : RegName.ofIndex r.index = some r := by
  cases r with
  | coef i => revert i; decide
  | frame k => revert k; decide
  | _ => rfl

theorem RegName.index_of_ofIndex : ∀ (a : RegIndex) (r : RegName), RegName.ofIndex a = some r → r.index = a := by
  have h : ∀ a : BitVec 6, ∀ r ∈ RegName.ofIndex a, r.index = a := by decide
  exact fun a r e => h a r (by simp [e])

namespace Machine

theorem readValue_index (b : Block) (r : RegName) : readValue b r.index = readReg b r := by
  simp [readValue, RegName.ofIndex_index]

theorem regWrite_index (b : Block) (r : RegName) (d : Word) : regWrite b r.index d = writeReg b r d := by
  simp [regWrite, RegName.ofIndex_index]

/-- A write either is a dispatched command word, or goes to a coefficient, or changes one input register, or does
nothing. -/
theorem regWrite_cases (b : Block) (a : RegIndex) (d : Word) :
    (a = 0 ∧ regWrite b a d = dispatch b d) ∨
      (∃ i : Fin 7, a = (RegName.coef i).index ∧ regWrite b a d = coefWrite b i d) ∨
      (a = 12 ∧ regWrite b a d = { b with d1 := keptCount d }) ∨
      (a = 13 ∧ regWrite b a d = { b with d2 := keptCount d }) ∨
      (∃ k : Fin 6, a = (RegName.frame k).index ∧ regWrite b a d = { b with frame := b.frame.set k (keptByte d) }) ∨
      (a = 20 ∧ regWrite b a d = { b with baseline := d }) ∨
      regWrite b a d = b := by
  unfold regWrite
  split
  · next r h =>
    have ha := (RegName.index_of_ofIndex a r h).symm
    cases r with
    | cmd => exact .inl ⟨ha, rfl⟩
    | coef i => exact .inr (.inl ⟨i, ha, rfl⟩)
    | d1 => exact .inr (.inr (.inl ⟨ha, rfl⟩))
    | d2 => exact .inr (.inr (.inr (.inl ⟨ha, rfl⟩)))
    | frame k => exact .inr (.inr (.inr (.inr (.inl ⟨k, ha, rfl⟩))))
    | baseline => exact .inr (.inr (.inr (.inr (.inr (.inl ⟨ha, rfl⟩)))))
    | _ => exact .inr (.inr (.inr (.inr (.inr (.inr rfl)))))
  · simp

/-- A coefficient write is refused by a locked table, which WLOCK records, and taken by an unlocked one (R105). -/
theorem coefWrite_cases (b : Block) (i : Fin 7) (d : Word) :
    (b.calValid = true ∧ coefWrite b i d = { b with wlock := true }) ∨
      (b.calValid = false ∧ coefWrite b i d = { b with coef := b.coef.set i (keptCoef d) }) := by
  cases h : b.calValid <;> simp [coefWrite, h]

/-- A command word selects one of the five commands (R93). -/
theorem dispatch_cases (b : Block) (d : Word) :
    (d = 1 ∧ dispatch b d = calValidate b) ∨ (d = 2 ∧ dispatch b d = ptConvert b) ∨
      (d = 3 ∧ dispatch b d = htDecode b) ∨ (d = 4 ∧ dispatch b d = altCompute b) ∨
      (selectsCommand d = false ∧ dispatch b d = illegalCmd b) := by
  unfold dispatch
  split
  · next h => exact .inl ⟨h, rfl⟩
  split
  · next h => exact .inr (.inl ⟨h, rfl⟩)
  split
  · next h => exact .inr (.inr (.inl ⟨h, rfl⟩))
  split
  · next h => exact .inr (.inr (.inr (.inl ⟨h, rfl⟩)))
  · simp_all [selectsCommand]

/-- What `exec` does to the block. -/
def blockAfter (i : Instr) (b : Block) : Block :=
  match i with
  | .regRead _ _ => b
  | .regWrite a d => regWrite b a d
  | .calValidate => calValidate b
  | .ptConvert => ptConvert b
  | .htDecode => htDecode b
  | .altCompute => altCompute b
  | .illegalCmd _ => illegalCmd b

/-- Every instruction answers a next state; it never touches the pending events. -/
theorem exec_next (i : Instr) (s : State) :
    ∃ t, exec i s = .next t ∧ t.block = blockAfter i s.block ∧ t.pending = s.pending := by
  cases i <;> exact ⟨_, rfl, rfl, rfl⟩

/-- Where a step answers a next state, it was idle, or performed a transaction, or performed a reset. -/
theorem step_cases {s t : State} (h : step s = .next t) :
    (s.pending = [] ∧ t = s) ∨
      (∃ e rest i, s.pending = e :: rest ∧ deliver e = .transaction i ∧ exec i (s.accept rest) = .next t) ∨
      (∃ e rest, s.pending = e :: rest ∧ deliver e = .reset ∧ t = (s.accept rest).takeReset) := by
  unfold step at h
  split at h
  · next hp => exact .inl ⟨hp, by simpa using h.symm⟩
  · next e rest hp =>
    split at h
    · next i hd => exact .inr (.inl ⟨e, rest, i, hp, hd, h⟩)
    · next hd => exact .inr (.inr ⟨e, rest, hp, hd, by simpa using h.symm⟩)
    · cases h
    · cases h

/-- Only the reset event is delivered as a reset. -/
theorem deliver_reset {e : HostEvent} (h : deliver e = .reset) : e = .reset := by
  cases e with
  | reset => rfl
  | record r => simp only [deliver, deliverRecord] at h; split at h <;> cases h
  | busRead addr size => simp only [deliver, deliverAccess, deliverRecord] at h; repeat' split at h <;> try cases h
  | busWrite addr size data => simp only [deliver, deliverAccess, deliverRecord] at h; repeat' split at h <;> try cases h

/-- A record is delivered as the instruction it decodes to, or refused. -/
theorem deliverRecord_cases (r : Record) :
    (∃ i, decode r = .ok i ∧ deliverRecord r = .transaction i) ∨
      (∃ op, decode r = .error (.reservedOp op) ∧ deliverRecord r = .refuse (.reservedRecord op)) := by
  unfold deliverRecord
  split
  · next i h => exact .inl ⟨i, h, rfl⟩
  · next op h => exact .inr ⟨op, h, rfl⟩

/-- The byte offset of a word index lies in the window, is aligned, and leads back to the index (R51). -/
theorem window_of_byteOffset (a : RegIndex) : inWindow (Config.blockBase + byteOffset a) = true ∧
    admitted (Config.blockBase + byteOffset a) 4 = true ∧ wordIndex (Config.blockBase + byteOffset a) = a := by
  have ha : a.toNat < 64 := a.isLt
  refine ⟨?_, ?_, ?_⟩
  · simp [inWindow, byteOffset, Config.windowBytes, Config.windowWords]
    omega
  · have hm : Config.blockBase % 4 = 0 := by
      simp only [Config.blockBase, Config.windowBytes, Config.windowWords]; omega
    simp [admitted, byteOffset]
    omega
  · simp [wordIndex, byteOffset]

/-- A word access to the window is the record of its word index (R51, R54). -/
theorem deliver_memRead (a : RegIndex) : deliver (memRead a) = deliverRecord (mkRecord 0b00 a 0) := by
  obtain ⟨h1, h2, h3⟩ := window_of_byteOffset a
  simp [deliver, memRead, deliverAccess, h1, h2, h3]

theorem deliver_memWrite (a : RegIndex) (v : Word) :
    deliver (memWrite a v) = deliverRecord (mkRecord 0b10 a v) := by
  obtain ⟨h1, h2, h3⟩ := window_of_byteOffset a
  simp [deliver, memWrite, deliverAccess, h1, h2, h3]

end Machine

end Sys2Proof
end

