-- ==== Sys2Proof/Laws/PerInstr.lean ====
section
/-!
SUPPORT. Facts about every instruction as syntax, one lemma per constructor.
-/

namespace Sys2Proof

@[simp] theorem opField_mkRecord (op : BitVec 2) (a : RegIndex) (d : Word) : opField (mkRecord op a d) = op := by
  ext i hi
  simp only [opField, mkRecord, BitVec.getElem_extractLsb', BitVec.getLsbD_append]
  have h : ¬(38 + i < 32) := by omega
  have h' : ¬(38 + i - 32 < 6) := by omega
  have e : 38 + i - 32 - 6 = i := by omega
  simp only [h, h', e, if_false]
  exact BitVec.getLsbD_eq_getElem hi

@[simp] theorem aField_mkRecord (op : BitVec 2) (a : RegIndex) (d : Word) : aField (mkRecord op a d) = a := by
  ext i hi
  simp only [aField, mkRecord, BitVec.getElem_extractLsb', BitVec.getLsbD_append]
  have h : ¬(32 + i < 32) := by omega
  have h' : 32 + i - 32 < 6 := by omega
  have e : 32 + i - 32 = i := by omega
  simp [h, e, hi]

@[simp] theorem dField_mkRecord (op : BitVec 2) (a : RegIndex) (d : Word) : dField (mkRecord op a d) = d := by
  ext i hi
  simp only [dField, mkRecord, BitVec.getElem_extractLsb', BitVec.getLsbD_append, Nat.zero_add, hi, if_true]
  exact BitVec.getLsbD_eq_getElem hi

namespace Laws.EncodeLayout

/-- The fields an instruction's record holds (R71, R75): OP 00 for a read and 10 for every other, A 0 for a command. -/
def opOf : Instr → BitVec 2
  | .regRead _ _ => 0b00
  | .regWrite _ _ => 0b10
  | .calValidate => 0b10
  | .ptConvert => 0b10
  | .htDecode => 0b10
  | .altCompute => 0b10
  | .illegalCmd _ => 0b10

/-- The index an instruction's record names (R75). -/
def indexOf : Instr → RegIndex
  | .regRead a _ => a
  | .regWrite a _ => a
  | .calValidate => 0
  | .ptConvert => 0
  | .htDecode => 0
  | .altCompute => 0
  | .illegalCmd _ => 0

/-- Every encoded instruction has the OP and A fields of its row. -/
def Statement (i : Instr) : Prop := opField (encode i) = opOf i ∧ aField (encode i) = indexOf i

theorem regRead (a : RegIndex) (d : Word) : Statement (.regRead a d) := ⟨opField_mkRecord .., aField_mkRecord ..⟩
theorem regWrite (a : RegIndex) (d : Word) : Statement (.regWrite a d) := ⟨opField_mkRecord .., aField_mkRecord ..⟩
theorem calValidate : Statement .calValidate := ⟨opField_mkRecord .., aField_mkRecord ..⟩
theorem ptConvert : Statement .ptConvert := ⟨opField_mkRecord .., aField_mkRecord ..⟩
theorem htDecode : Statement .htDecode := ⟨opField_mkRecord .., aField_mkRecord ..⟩
theorem altCompute : Statement .altCompute := ⟨opField_mkRecord .., aField_mkRecord ..⟩
theorem illegalCmd (d : Word) : Statement (.illegalCmd d) := ⟨opField_mkRecord .., aField_mkRecord ..⟩

end Laws.EncodeLayout

end Sys2Proof
end

