-- ==== Sys2Proof/Tests/Slice0.lean ====
section
/-!
SUPPORT. Tests. Expected values are the vectors of spec/95_test_vectors.md, named where they stand; the witnesses at the
end show states and operands that meet the hypotheses of the statements.
-/

namespace Sys2Proof.Tests

open Sys2Proof Sys2Proof.Machine

/-! ## Helpers -/

/-- The block of a next state. -/
def blockOf : Host.Outcome State Fault Refusal → Option Block
  | .next s => some s.block
  | .fault _ => none
  | .refused _ => none

/-- What a next state returned to the host. -/
def returned : Host.Outcome State Fault Refusal → Option Word
  | .next s => s.response
  | .fault _ => none
  | .refused _ => none

/-- The reset machine with another block and the given events to deliver. -/
def machine (b : Block) (events : List HostEvent) : State := { State.reset with block := b, pending := events }

/-- C_ex of 95_test_vectors.md. -/
def exampleTable : CoefTable := #v[0xA0C5, 45000, 42000, 28000, 26000, 32000, 28000]

/-- C_ex loaded with the counts of V-PT-1. -/
def loaded : Block := { Block.reset with coef := exampleTable, d1 := 6500000, d2 := 8192000 }

/-- C_ex validated and locked. -/
def locked : Block := { loaded with calValid := true, crc4Calc := 0xA, crc4Stored := 0xA }

/-- A block with a pressure result and the baseline of V-ALT-1. -/
def measured : Block := { locked with ptValid := true, presF := 0x448AAFAE, baseline := 0x448AAFAE }

/-- A block that holds the frame of V-HT-1. -/
def framed : Block := { Block.reset with frame := #v[0x66, 0x66, 0x93, 0x66, 0x66, 0x93] }

/-! ## WellFormed smoke: an ill-formed term for each check -/

theorem test_wf_refuses_regWrite_to_cmd : (Instr.regWrite 0 5).wf = false := by decide
theorem test_wf_refuses_illegalCmd_1 : (Instr.illegalCmd 1).wf = false := by decide
theorem test_wf_refuses_illegalCmd_2 : (Instr.illegalCmd 2).wf = false := by decide
theorem test_wf_refuses_illegalCmd_3 : (Instr.illegalCmd 3).wf = false := by decide
theorem test_wf_refuses_illegalCmd_4 : (Instr.illegalCmd 4).wf = false := by decide
theorem test_wf_accepts_illegalCmd_257 : (Instr.illegalCmd 0x101).wf = true := by decide

/-! ## Decoding: words written out from R71, and the vectors V-ENC-1 to V-ENC-12 -/

theorem test_decode_regRead : decode 0b0000000100000000000000000000000000000000 = .ok (.regRead 1 0) := by decide
theorem test_decode_regWrite :
    decode 0b1000110000000000011000110010111010100000 = .ok (.regWrite 12 6500000) := by decide
theorem test_decode_calValidate : decode 0b1000000000000000000000000000000000000001 = .ok .calValidate := by decide
theorem test_decode_ptConvert : decode 0b1000000000000000000000000000000000000010 = .ok .ptConvert := by decide
theorem test_decode_htDecode : decode 0b1000000000000000000000000000000000000011 = .ok .htDecode := by decide
theorem test_decode_altCompute : decode 0b1000000000000000000000000000000000000100 = .ok .altCompute := by decide
theorem test_decode_illegalCmd :
    decode 0b1000000000000000000000000000000100000001 = .ok (.illegalCmd 0x101) := by decide
theorem test_decode_illegal_all_ones : decode 0x80FFFFFFFF = .ok (.illegalCmd 0xFFFFFFFF) := by decide
theorem test_decode_read_ignores_data : decode 0x01DEADBEEF = .ok (.regRead 1 0xDEADBEEF) := by decide
theorem test_decode_reserved_01 : decode 0x4100000000 = .error (.reservedOp 0b01) := by decide
theorem test_decode_reserved_11 : decode 0xC100000000 = .error (.reservedOp 0b11) := by decide
theorem test_decode_reserved_index : decode 0xBF00000001 = .ok (.regWrite 63 1) := by decide
theorem test_decodeTableWord : decodeTableWord 40 0x8000000002 = some .ptConvert := by decide

/-! ## One step of each instruction -/

theorem test_step_regRead_status :
    returned (step ((machine measured []).withFetchWord 40 0x0100000000)) = some 0x00000003 := by decide +kernel

theorem test_step_regRead_reserved :
    returned (step ((machine measured []).withFetchWord 40 0x0300000000)) = some 0x00000000 := by decide +kernel

/-- V-REG-3. -/
theorem test_step_regWrite_d1 :
    (blockOf (step (State.reset.withFetchWord 40 0x8CFF123456))).map (·.d1) = some 0x123456 := by decide +kernel

/-- V-REG-10. -/
theorem test_step_regWrite_locked :
    (blockOf (step ((machine locked []).withFetchWord 40 0x8A00000000))).map (fun b => (b.coef[6], statusWord b)) =
      some (0x6D60, 0x00000041) := by decide +kernel

/-- V-CAL-1. -/
theorem test_step_calValidate :
    (blockOf (step ((machine loaded []).withFetchWord 40 0x8000000001))).map (fun b => (statusWord b, crcWord b)) =
      some (0x00000001, 0x000000AA) := by decide +kernel

/-- V-CAL-2. -/
theorem test_step_calValidate_mismatch :
    (blockOf (exec .calValidate (machine { loaded with coef := exampleTable.set 0 0xB0C5 } []))).map
      (fun b => (statusWord b, crcWord b)) = some (0x00000100, 0x000000BA) := by decide +kernel

/-- V-PT-1. -/
theorem test_step_ptConvert :
    (blockOf (step ((machine locked []).withFetchWord 40 0x8000000002))).map
      (fun b => (b.tempI, b.presI, b.tempF, b.presF)) = some (2000, 110949, 0x41A00000, 0x448AAFAE) := by
  decide +kernel

/-- V-PT-6, both branches. -/
theorem test_step_ptConvert_cold :
    (blockOf (exec .ptConvert (machine { locked with d2 := 7143124 } []))).map
      (fun b => (b.tempI, b.presI, b.tempF, b.presF)) = some (0xFFFFF823, 0x00018D69, 0xC1A10A3D, 0x447E57AE) := by
  decide +kernel

/-- V-HT-1. -/
theorem test_step_htDecode :
    (blockOf (step ((machine framed []).withFetchWord 40 0x8000000003))).map
      (fun b => (statusWord b, crcWord b, b.htTempN, b.htTempF, b.htHumN, b.htHumF)) =
      some (0x00000034, 0x00939300, 0x0018FFE7, 0x41C80000, 0x002BFFD4, 0x42300000) := by decide +kernel

/-- V-HT-3: one bad half fails the frame. -/
theorem test_step_htDecode_bad_half :
    (blockOf (exec .htDecode (machine { framed with frame := framed.frame.set 5 0x94 } []))).map
      (fun b => (statusWord b, crcWord b, b.htTempF)) = some (0x00000310, 0x00939300, 0) := by decide +kernel

/-- V-ALT-1, by AF1. -/
theorem test_step_altCompute :
    (blockOf (step ((machine measured []).withFetchWord 40 0x8000000004))).map (fun b => (statusWord b, b.altF)) =
      some (0x0000000B, 0x00000000) := by decide +kernel

/-- V-ALT-3: NoPressure is tested first. -/
theorem test_step_altCompute_noPressure :
    (blockOf (exec .altCompute State.reset)).map statusWord = some 0x00000500 := by decide +kernel

/-- V-ILL-3. -/
theorem test_step_illegalCmd :
    (blockOf (step ((machine measured []).withFetchWord 40 0x8000000101))).map statusWord = some 0x00000603 := by
  decide +kernel

theorem test_step_reserved_record :
    step (State.reset.withFetchWord 40 0x4100000000) = .refused (.reservedRecord 0b01) := rfl

/-! ## The checksums, the polynomial and the rounding -/

/-- V-CAL-10 and V-CAL-12. -/
theorem test_crc4 : crc4 (Vector.replicate 7 0xFFFF) = 0xB ∧ crc4 #v[0, 1, 0, 0, 0, 0, 0] = 0x4 := by decide +kernel

/-- V-CRC8-1 and V-CRC8-2. -/
theorem test_crc8 : crc8 [0x62, 0x1E] = 0x51 ∧ crc8 [0xBE, 0xEF] = 0x92 := by decide +kernel

/-- V-PT-2. -/
theorem test_compTerms_both_branches : compTerms exampleTable 0 0 =
    { dT := -8192000, temp1 := -25343, off1 := 2177024000, sens1 := 1157120000, t2 := 31250, off2 := 5848519665,
      sens2 := 4061237130, temp := -56593, off := -3671495665, sens := -2904117130, p := 112045 } := by decide +kernel

/-- V-PT-10, in the declared widths as well. -/
theorem test_compensate_extreme :
    compensate (Vector.replicate 7 0xFFFF) 0xFFFFFF 0 = (-260136, -23093651) ∧
      (compensateDeclared (Vector.replicate 7 0xFFFF) 0xFFFFFF 0).2.toInt = -23093651 := by decide +kernel

/-- V-PT-10, V-HT-D4 and V-HT-D6. -/
theorem test_f32 : f32 (-23093651) 100 = 0xC8618621 ∧ f32 40 65535 = 0x3A2000A0 ∧ f32 25 65535 = 0x39C800C8 := by
  decide +kernel

/-- V-ALT-6 to V-ALT-9. -/
theorem test_admissible : [0xC47D0000, 0x7F800000, 0x7FC00000, 0x00000001].map admissible =
    [false, false, false, true] := by decide

/-! ## The assembler, on lines of P1, P2 and P4 -/

theorem test_assemble_statements : assemble ["rd STATUS   ; -> 0x00000001", "wr D1, 6500000", "", "pt.convert"] =
    some [0x0100000000, 0x8C00632EA0, 0x8000000002] := by decide +kernel

theorem test_assemble_values : assemble ["wr BASELINE, f32(1109.49)", "wr [11], -2013"] =
    some [0x94448AAFAE, 0x8BFFFFF823] := by decide +kernel

theorem test_assemble_rejects : assemble ["wr COEF9, 1"] = none := by decide +kernel

/-! ## Witnesses: the hypotheses of the statements can be met -/

/-- The invariant holds of a state with a locked table. -/
theorem locked_inv : (machine locked []).Inv where
  err_produced := by decide
  locked_valid := by decide +kernel
  crc_of_locked := by decide +kernel
  wlock_locked := by decide
  pt_calibrated := by decide
  alt_has_pressure := by decide
  ht_both_halves := by decide
  tempF_rounded := by decide
  presF_rounded := by decide
  htTempF_rounded := by decide
  htHumF_rounded := by decide
  temp_bounds := by decide
  pres_bound := by decide
  htTemp_range := by decide
  htHum_range := by decide

theorem test_witness_reserved_indices :
    (3 : RegIndex) = 3 ∧ RegName.ofIndex 3 = none ∧ RegName.ofIndex 11 = none ∧ RegName.ofIndex 21 = none ∧
      RegName.ofIndex 23 = none ∧ (33 : RegIndex) ≤ 33 ∧ RegName.ofIndex 33 = none ∧ RegName.ofIndex 63 = none := by
  decide

theorem test_witness_access : RegName.status.access = .ro ∧ RegName.altF.access = .ro ∧ RegName.cmd.access = .wo ∧
    RegName.ofIndex 22 = none := by decide

theorem test_witness_writes : (63 : RegIndex) ≠ 0 ∧ (21 : RegIndex) ≤ 21 ∧ (21 : RegIndex) ≤ 63 ∧
    (4 : RegIndex) ≤ 4 ∧ (10 : RegIndex) ≤ 10 := by decide

theorem test_witness_commands : isCommand .altCompute = true ∧ isCommand (.illegalCmd 7) = true ∧
    (∀ a d, Instr.htDecode ≠ .regRead a d) ∧ selectsCommand 0 = false ∧ selectsCommand 5 = false := by
  refine ⟨rfl, rfl, ?_, rfl, rfl⟩
  intro a d h
  cases h

theorem test_witness_table_matches :
    crc4 loaded.coef = loaded.coef[0].extractLsb' 12 4 ∧ tableValid exampleTable = true := by decide +kernel

theorem test_witness_table_mismatches :
    crc4 (exampleTable.set 0 0xB0C5) ≠ (exampleTable.set 0 0xB0C5)[0].extractLsb' 12 4 := by decide +kernel

theorem test_witness_locked_runs : (machine locked []).Inv ∧ locked.calValid = true ∧
    noResetPending (machine locked []) ∧
      Host.Core.run Sys2Proof.core 3 (machine locked []) = .next (machine locked []) :=
  ⟨locked_inv, rfl, by simp [noResetPending, machine, State.reset], rfl⟩

theorem test_witness_reset_unlocks : (machine locked [.reset]).Inv ∧
    ∃ t, step (machine locked [.reset]) = .next t ∧ t.block.calValid = false ∧
      (machine locked [.reset]).pending = .reset :: [] :=
  ⟨locked_inv, _, rfl, rfl, rfl⟩

theorem test_witness_reset_clears_wlock :
    ∃ t, step (machine { locked with wlock := true } [.reset]) = .next t ∧ t.block.wlock = false := ⟨_, rfl, rfl⟩

/-- V-PT-3 to V-PT-6: first-order TEMP at 2000, 1999, −1500 and −1501. -/
theorem test_witness_branches : (compTerms exampleTable 6500000 8191701).temp1 = 2000 ∧
    (compTerms exampleTable 6500000 8191700).temp1 = 1999 ∧ (compTerms exampleTable 6500000 7143125).temp1 = -1500 ∧
      (compTerms exampleTable 6500000 7143124).temp1 = -1501 := by decide +kernel

/-- V-PT-8: P = 0. -/
theorem test_witness_zero_pressure : (compensate (Vector.replicate 7 0) 0 0).2 = 0 := by decide +kernel

theorem test_witness_gate : locked.calValid = true ∧ loaded.calValid = false ∧ locked.coef = exampleTable ∧
    locked.d1 = 6500000 ∧ locked.d2 = 8192000 := by decide

theorem test_witness_pure : (∀ i : Fin 7, i ≠ 0 → exampleTable[i] = (exampleTable.set 0 0)[i]) ∧
    exampleTable[0] ≠ (exampleTable.set 0 0)[0] := by decide

theorem test_witness_f32_range : |quotient (-5) 100| ≤ maxFinite32 ∧ 0 < 100 := by
  norm_num [quotient, maxFinite32, abs_le]

theorem test_witness_rounded_range : (-(2 ^ 26 - 1) : Int).natAbs < 2 ^ 26 ∧ (2 ^ 26 - 1 : Int) ≠ 0 := by decide

theorem test_witness_val32 : val32 0x3F800000 = some 1 ∧ val32 0xBF800000 = some (-1) ∧ (1 : ℚ) ≠ 0 := by
  decide +kernel

theorem test_witness_alt_gates : measured.ptValid = true ∧ admissible measured.baseline = true ∧
    locked.ptValid = false ∧ admissible locked.baseline = false ∧ measured.presF = 0x448AAFAE := by decide

theorem test_witness_raw_bounds : (3145 : Nat) < 2 ^ 16 ∧ 3146 < 2 ^ 16 ∧ 55573 < 2 ^ 16 ∧ 65535 < 2 ^ 16 ∧
    (65535 ≠ 16852) := by decide

theorem test_witness_frame_passes : crc8 [framed.frame[0], framed.frame[1]] = framed.frame[2] ∧
    crc8 [framed.frame[3], framed.frame[4]] = framed.frame[5] ∧ (0x94 : Byte) ≠ framed.frame[5] ∧
      (0x00 : Byte) ≠ framed.frame[2] := by decide +kernel

theorem test_witness_frame_fails : ¬(crc8 [Block.reset.frame[0], Block.reset.frame[1]] = Block.reset.frame[2] ∧
    crc8 [Block.reset.frame[3], Block.reset.frame[4]] = Block.reset.frame[5]) := by decide +kernel

/-- V-HT-3 and V-HT-4: a frame with one bad half, either way round. -/
theorem test_witness_one_bad_half :
    (let f : Frame := #v[0x66, 0x66, 0x93, 0x66, 0x66, 0x94]
     crc8 [f[0], f[1]] = f[2] ∧ crc8 [f[3], f[4]] ≠ f[5]) ∧
    (let f : Frame := #v[0x62, 0x1E, 0x52, 0x66, 0x66, 0x93]
     crc8 [f[0], f[1]] ≠ f[2] ∧ crc8 [f[3], f[4]] = f[5]) := by decide +kernel

theorem test_witness_baseline_alone_fails : ({ measured with baseline := 0 } : Block).ptValid = true ∧
    admissible ({ measured with baseline := 0 } : Block).baseline = false := by decide

theorem test_witness_error_keeps : ∃ t, exec (.illegalCmd 7) (machine measured []) = .next t ∧ t.block.err ≠ 0 :=
  ⟨_, rfl, by decide⟩

/-- Each flag and each register of the writers' statements does change in its writer. -/
theorem test_witness_writers :
    (∃ t, exec .calValidate (machine loaded []) = .next t ∧ t.block.calValid ≠ loaded.calValid) ∧
    (∃ t, exec .ptConvert (machine locked []) = .next t ∧ t.block.ptValid ≠ locked.ptValid ∧
      t.block.tempI ≠ locked.tempI) ∧
    (∃ t, exec .htDecode (machine framed []) = .next t ∧ t.block.htValid ≠ framed.htValid ∧
      t.block.tCrcOk ≠ framed.tCrcOk ∧ t.block.htTempN ≠ framed.htTempN ∧ t.block.crc8T ≠ framed.crc8T) ∧
    (∃ t, exec .altCompute (machine { measured with altF := 7 } []) = .next t ∧ t.block.altValid ≠ measured.altValid ∧
      t.block.altF ≠ 7) ∧
    (∃ t, exec (.regWrite 10 0) (machine locked []) = .next t ∧ t.block.wlock ≠ locked.wlock) ∧
    (∃ t, exec (.regWrite 4 1) (machine loaded []) = .next t ∧ t.block.coef[0] ≠ loaded.coef[0]) ∧
    (∃ t, exec (.regWrite 19 1) (machine framed []) = .next t ∧ t.block.frame[5] ≠ framed.frame[5]) ∧
    (∃ t, exec (.regRead 1 0) (machine loaded []) = .next t ∧ t.response ≠ none) := by
  refine ⟨⟨_, rfl, ?_⟩, ⟨_, rfl, ?_⟩, ⟨_, rfl, ?_⟩, ⟨_, rfl, ?_⟩, ⟨_, rfl, ?_⟩, ⟨_, rfl, ?_⟩, ⟨_, rfl, ?_⟩, ⟨_, rfl, ?_⟩⟩ <;>
    decide +kernel

theorem test_witness_well_formed : (Instr.regWrite 63 1).wf = true ∧ (Instr.illegalCmd 0).wf = true ∧
    (Instr.illegalCmd 5).wf = true ∧ Instr.ptConvert.wf = true := by decide

theorem test_witness_step : ∃ (s : State) (rest : List HostEvent), s.pending = .record 0x8000000001 :: rest ∧
    decode 0x8000000001 = .ok .calValidate :=
  ⟨machine loaded [.record 0x8000000001], [], rfl, by decide⟩

theorem test_witness_bus_read : ∃ s : State, s.pending = .busRead (Config.blockBase + 4 * (63 : RegIndex).toNat) 4 :: [] :=
  ⟨machine loaded [.busRead (Config.blockBase + 4 * (63 : RegIndex).toNat) 4], rfl⟩

theorem test_witness_bus_write :
    ∃ s : State, s.pending = .busWrite (Config.blockBase + 4 * (0 : RegIndex).toNat) 4 1 :: [] :=
  ⟨machine loaded [.busWrite (Config.blockBase + 4 * (0 : RegIndex).toNat) 4 1], rfl⟩

theorem test_witness_bus_inadmissible : Config.blockBase ≤ Config.blockBase + 255 ∧
    Config.blockBase + 255 < Config.blockBase + 256 ∧ (Config.blockBase + 255) % 4 ≠ 0 ∧ (2 : Nat) ≠ 4 ∧
      (machine loaded [.busRead (Config.blockBase + 255) 4]).pending = .busRead (Config.blockBase + 255) 4 :: [] := by
  refine ⟨by omega, by omega, ?_, by decide, rfl⟩
  unfold Config.blockBase Config.windowBytes Config.windowWords
  omega

theorem test_witness_bus_outside : Config.blockBase + 256 ≤ Config.blockBase + 256 ∧
    (machine loaded [.busWrite (Config.blockBase + 256) 4 0]).pending = .busWrite (Config.blockBase + 256) 4 0 :: [] :=
  ⟨le_refl _, rfl⟩

/-- One event of each kind the statement admits. -/
theorem test_witness_admitted_run : ∀ e ∈ (machine loaded [.reset, .record (encode .ptConvert),
      .busRead (Config.blockBase + 4 * (63 : RegIndex).toNat) 4,
      .busWrite (Config.blockBase + 4 * (0 : RegIndex).toNat) 4 1]).pending,
    e = .reset ∨ (∃ i : Instr, i.wf = true ∧ e = .record (encode i)) ∨
      (∃ a : RegIndex, e = .busRead (Config.blockBase + 4 * a.toNat) 4) ∨
      (∃ (a : RegIndex) (d : Word), e = .busWrite (Config.blockBase + 4 * a.toNat) 4 d) := by
  intro e he
  obtain rfl | rfl | rfl | rfl : e = _ ∨ e = _ ∨ e = _ ∨ e = _ := by simpa [machine] using he
  · exact .inl rfl
  · exact .inr (.inl ⟨.ptConvert, rfl, rfl⟩)
  · exact .inr (.inr (.inl ⟨63, rfl⟩))
  · exact .inr (.inr (.inr ⟨0, 1, rfl⟩))

/-- Two machines that differ in the decoder's share alone, both running a conversion. -/
theorem test_witness_peers : ∃ t₁ t₂,
    Host.Core.run Sys2Proof.core 1 (machine locked [.record 0x8000000002]) = .next t₁ ∧
    Host.Core.run Sys2Proof.core 1 (machine { locked with frame := framed.frame } [.record 0x8000000002]) = .next t₂ ∧
    compensatorShare locked = compensatorShare { locked with frame := framed.frame } ∧
    decoderShare locked ≠ decoderShare { locked with frame := framed.frame } :=
  ⟨_, _, rfl, rfl, rfl, by decide⟩

end Sys2Proof.Tests
end

section
/-!
PROOFS. The registers as a host sees them (10_state.md): what a write and its read-back do, what the commands keep of the
host's own registers, how a command word is dispatched, and the reset values.
-/

namespace Sys2Proof.Machine

/-! ### The completion of a write and of a command -/

theorem exec_regWrite_eq (a : RegIndex) (d : Word) (s : State) :
    exec (.regWrite a d) s = .next (s.withBlock (regWrite s.block a d)) := rfl

theorem exec_command_eq {i : Instr} (h : isCommand i = true) (s : State) :
    exec i s = .next (s.withBlock (blockAfter i s.block)) := by
  cases i with
  | regRead a d => cases h
  | regWrite a d => cases h
  | _ => rfl

/-! ### Reading back what was written -/

theorem readValue_regWrite_index (b : Block) (r : RegName) (d : Word) :
    readValue (regWrite b r.index d) r.index = readReg (writeReg b r d) r := by
  rw [regWrite_index, readValue_index]

theorem writeReg_frame_getElem (b : Block) (k : Fin 6) (d : Word) :
    (writeReg b (.frame k) d).frame[k] = keptByte d := Vector.getElem_set_self k.isLt

/-- A write of a register completes, and its read-back is the register's value after the write. -/
theorem exec_regWrite_index (r : RegName) (d : Word) (s : State) :
    ∃ t, exec (.regWrite r.index d) s = .next t ∧ t.block = writeReg s.block r d ∧
      readValue t.block r.index = readReg (writeReg s.block r d) r :=
  ⟨_, exec_regWrite_eq r.index d s, regWrite_index s.block r d, readValue_regWrite_index s.block r d⟩

/-! ### What a command keeps -/

/-- `b'` holds in the registers that take the host's inputs (R30, R33, R34, R36) and in WLOCK (R27) what `b` holds. -/
structure Block.KeepsInputs (b b' : Block) : Prop where
  coef : b'.coef = b.coef
  d1 : b'.d1 = b.d1
  d2 : b'.d2 = b.d2
  frame : b'.frame = b.frame
  baseline : b'.baseline = b.baseline
  wlock : b'.wlock = b.wlock

theorem calValidate_keepsInputs (b : Block) : b.KeepsInputs (calValidate b) := by
  obtain ⟨-, h⟩ | ⟨-, h⟩ := calValidate_cases b <;> rw [h] <;> constructor <;> rfl

theorem ptConvert_keepsInputs (b : Block) : b.KeepsInputs (ptConvert b) := by
  obtain ⟨-, h⟩ | ⟨-, h⟩ := ptConvert_cases b <;> rw [h] <;> constructor <;> rfl

theorem htDecode_keepsInputs (b : Block) : b.KeepsInputs (htDecode b) := by
  obtain ⟨-, h⟩ | ⟨-, h⟩ := htDecode_cases b <;> rw [h] <;> constructor <;> rfl

theorem altCompute_keepsInputs (b : Block) : b.KeepsInputs (altCompute b) := by
  obtain ⟨-, h⟩ | ⟨-, -, h⟩ | ⟨-, -, h⟩ := altCompute_cases b <;> rw [h] <;> constructor <;> rfl

theorem illegalCmd_keepsInputs (b : Block) : b.KeepsInputs (illegalCmd b) := by
  rw [illegalCmd_eq]; constructor <;> rfl

/-- No command writes a register that the host writes (R36 says it of BASELINE), nor WLOCK (R42). -/
theorem command_keepsInputs {i : Instr} (h : isCommand i = true) (b : Block) : b.KeepsInputs (blockAfter i b) := by
  cases i with
  | regRead a d => cases h
  | regWrite a d => cases h
  | calValidate => exact calValidate_keepsInputs b
  | ptConvert => exact ptConvert_keepsInputs b
  | htDecode => exact htDecode_keepsInputs b
  | altCompute => exact altCompute_keepsInputs b
  | illegalCmd d => exact illegalCmd_keepsInputs b

/-- ALT_COMPUTE evaluates on PRES_F and BASELINE where both gates are open (R153). -/
theorem altCompute_altF {b : Block} (hp : b.ptValid = true) (hb : admissible b.baseline = true) :
    (altCompute b).altF = altFn b.presF b.baseline := by
  obtain ⟨hp', -⟩ | ⟨-, hb', -⟩ | ⟨-, -, h⟩ := altCompute_cases b
  · simp [hp] at hp'
  · simp [hb] at hb'
  · rw [h]

/-! ### The dispatch of a command word -/

theorem regWrite_cmd (b : Block) (d : Word) : regWrite b 0 d = dispatch b d := regWrite_index b .cmd d

theorem isCommand_decodeCommand (d : Word) : isCommand (decodeCommand d) = true := by
  unfold decodeCommand
  split_ifs <;> rfl

/-- R72 and R93 select the same command: the decoder's for a record, and the block's for a written word. -/
theorem blockAfter_decodeCommand (d : Word) (b : Block) : blockAfter (decodeCommand d) b = dispatch b d := by
  unfold decodeCommand dispatch
  split_ifs <;> rfl

theorem decodeCommand_of_not_selects {d : Word} (h : ¬(d = 1 ∨ d = 2 ∨ d = 3 ∨ d = 4)) :
    decodeCommand d = .illegalCmd d := by
  obtain ⟨h1, h2, h3, h4⟩ : d ≠ 1 ∧ d ≠ 2 ∧ d ≠ 3 ∧ d ≠ 4 := by simpa only [not_or] using h
  simp only [decodeCommand, if_neg h1, if_neg h2, if_neg h3, if_neg h4]

/-- A command decoded from a record and the write of its word to CMD are one transaction (R26, R93). -/
theorem exec_decodeCommand (d : Word) (s : State) : exec (decodeCommand d) s = exec (.regWrite 0 d) s :=
  calc exec (decodeCommand d) s
      = .next (s.withBlock (blockAfter (decodeCommand d) s.block)) := exec_command_eq (isCommand_decodeCommand d) s
    _ = .next (s.withBlock (dispatch s.block d)) := by rw [blockAfter_decodeCommand]
    _ = .next (s.withBlock (regWrite s.block 0 d)) := by rw [regWrite_cmd]
    _ = exec (.regWrite 0 d) s := (exec_regWrite_eq 0 d s).symm

theorem readValue_cmd (b : Block) : readValue b 0 = 0 := readValue_index b .cmd

/-! ### The statements -/

/-- Settles O4, from the read-back of a written register and the frame of the commands. -/
theorem inputRegistersKeepAndReadBack : Obligations.InputRegistersKeepAndReadBack := by
  intro d s
  refine ⟨?d1, ?d2, ?frame, ?baseline, ?commands, ?altCompute⟩
  case d1 =>
    obtain ⟨t, ht, hb, hr⟩ := exec_regWrite_index .d1 d s
    exact ⟨t, ht, by rw [hb]; rfl, hr⟩
  case d2 =>
    obtain ⟨t, ht, hb, hr⟩ := exec_regWrite_index .d2 d s
    exact ⟨t, ht, by rw [hb]; rfl, hr⟩
  case frame =>
    intro k
    obtain ⟨t, ht, hb, hr⟩ := exec_regWrite_index (.frame k) d s
    have hk : (writeReg s.block (.frame k) d).frame[k] = d.extractLsb' 0 8 := writeReg_frame_getElem s.block k d
    exact ⟨t, ht, by rw [hb, hk], hr.trans (congrArg (BitVec.setWidth 32) hk)⟩
  case baseline =>
    obtain ⟨t, ht, hb, hr⟩ := exec_regWrite_index .baseline d s
    exact ⟨t, ht, by rw [hb]; rfl, hr⟩
  case commands =>
    intro i hi
    exact ⟨_, exec_command_eq hi s, (command_keepsInputs hi s.block).baseline⟩
  case altCompute =>
    intro hp hb
    exact ⟨_, exec_command_eq rfl s, altCompute_altF hp hb⟩

/-- Settles O5: decoder and block agree on the command of every word, and CMD holds nothing to read. -/
theorem commandWordSelectsCommand : Obligations.CommandWordSelectsCommand := by
  intro d s
  refine ⟨exec_decodeCommand d s, ?_, ?_, ?_, ?_, decodeCommand_of_not_selects, ?_⟩
  · rintro rfl; rfl
  · rintro rfl; rfl
  · rintro rfl; rfl
  · rintro rfl; rfl
  · exact ⟨_, exec_regWrite_eq 0 d s, readValue_cmd _⟩

theorem reset_coef_getElem (i : Fin 7) : Block.reset.coef[i] = 0 := by
  revert i; decide

theorem reset_frame_getElem (k : Fin 6) : Block.reset.frame[k] = 0 := by
  revert k; decide

/-- Settles O51: the two arrays entry by entry, every other component by its reset equation. -/
theorem resetClearsEveryComponent : Obligations.ResetClearsEveryComponent := by
  refine ⟨reset_coef_getElem, Block.reset_d1, Block.reset_d2, reset_frame_getElem, ?_⟩
  simp

end Sys2Proof.Machine
end

section
/-!
PROOFS. The encoding (30_encoding.md): the decoder's answer for each OP, the record of a command word, the host program's
formulas for a record, and the step that meets a reserved record.
-/

namespace Sys2Proof

/-! ### What the decoder answers, in R76's order -/

theorem decode_of_op_read {r : Record} (h : opField r = 0b00) : decode r = .ok (.regRead (aField r) (dField r)) :=
  if_pos h

/-- OP = 10 with A = 0 is a command, whose row takes the record before REG_WRITE's does (R76). -/
theorem decode_of_command {r : Record} (h : opField r = 0b10) (ha : aField r = 0) :
    decode r = .ok (decodeCommand (dField r)) := by
  rw [decode, if_neg (by simp [h]), if_pos h, if_pos ha]

theorem decode_of_op_write {r : Record} (h : opField r = 0b10) (ha : aField r ≠ 0) :
    decode r = .ok (.regWrite (aField r) (dField r)) := by
  rw [decode, if_neg (by simp [h]), if_pos h, if_neg ha]

/-- OP = 01 and OP = 11 spell no transaction (R77 item 1). -/
theorem decode_of_op_reserved {r : Record} (h : opField r = 0b01 ∨ opField r = 0b11) :
    decode r = .error (.reservedOp (opField r)) := by
  obtain h | h := h <;> simp [decode, h]

/-! ### The record of a statement -/

/-- The three fields side by side are R81's shift and OR. -/
theorem mkRecord_eq_shiftLeft_or (op : BitVec 2) (a : RegIndex) (d : Word) :
    mkRecord op a d = ((op ++ a).setWidth 40 <<< 32) ||| d.setWidth 40 := by
  rw [mkRecord, BitVec.append_def, BitVec.shiftLeftZeroExtend_eq, BitVec.setWidth'_eq]

/-- A command's record holds the command word in its D field, whichever command the word selects (R72, R75). -/
theorem encode_decodeCommand (d : Word) : encode (decodeCommand d) = mkRecord 0b10 0 d := by
  unfold decodeCommand
  split_ifs with h1 h2 h3 h4
  · rw [h1]; rfl
  · rw [h2]; rfl
  · rw [h3]; rfl
  · rw [h4]; rfl
  · rfl

theorem AsmTransaction.record_wr (a : RegIndex) (v : AsmValue) : (AsmTransaction.wr a v).record = mkRecord 0b10 a v.word :=
  (mkRecord_eq_shiftLeft_or 0b10 a v.word).symm

/-- A read's D field is 0, so R81 gives its record without the OR. -/
theorem AsmTransaction.record_rd (a : RegIndex) : (AsmTransaction.rd a).record = mkRecord 0b00 a 0 := by
  simp [AsmTransaction.record, mkRecord_eq_shiftLeft_or]

namespace Machine

/-! ### The step on a reserved record -/

/-- A record that the decoder rejects has no step (R77). -/
theorem step_of_reserved {s : State} {r : Record} {rest : List HostEvent} {op : BitVec 2}
    (hp : s.pending = .record r :: rest) (hr : decode r = .error (.reservedOp op)) :
    step s = .refused (.reservedRecord op) := by
  have hd : deliver (.record r) = .refuse (.reservedRecord op) := by
    simp only [deliver, deliverRecord, hr]
  simp only [step, hp, hd]

/-! ### The statements -/

/-- Settles O46: both formulas are the record's three fields side by side, and a command word's record is its encoding. -/
theorem statementsAreTheirRecords : Obligations.StatementsAreTheirRecords :=
  ⟨fun a => ⟨rfl, AsmTransaction.record_rd a⟩,
    fun _ _ => rfl,
    fun a v _ => AsmTransaction.record_wr a v,
    fun v => (AsmTransaction.record_wr 0 v).trans (encode_decodeCommand v.word).symm,
    by decide, by decide⟩

/-- Settles O44: the decoder's answer for each OP, the command words one by one, and the refusal of a reserved record. -/
theorem decodingOrder : Obligations.DecodingOrder := by
  intro r op a d
  have command (hop : op = 0b10) (ha : a = 0) : decode r = .ok (decodeCommand d) := decode_of_command hop ha
  refine ⟨decode_of_op_read, decode_of_op_write, ?calValidate, ?ptConvert, ?htDecode, ?altCompute, ?illegalCmd, ?reserved⟩
  case calValidate => intro hop ha hd; rw [command hop ha, hd]; rfl
  case ptConvert => intro hop ha hd; rw [command hop ha, hd]; rfl
  case htDecode => intro hop ha hd; rw [command hop ha, hd]; rfl
  case altCompute => intro hop ha hd; rw [command hop ha, hd]; rfl
  case illegalCmd => intro hop ha hd; rw [command hop ha, decodeCommand_of_not_selects hd]
  case reserved =>
    intro hop
    have hr : decode r = .error (.reservedOp op) := decode_of_op_reserved hop
    exact ⟨hr, fun s rest hp => step_of_reserved hp hr⟩

end Machine

end Sys2Proof
end

section
/-!
PROOFS. Register access (40_register_access.md): the value of every index and the bit places of STATUS and CRC, the two
transactions as equations of the whole next state, and ILLEGAL_CMD.
-/

namespace Sys2Proof

/-! ### What a read, a write and a command word decode to -/

theorem decode_mkRecord_read (a : RegIndex) (d : Word) : decode (mkRecord 0b00 a d) = .ok (.regRead a d) := by
  rw [decode_of_op_read (opField_mkRecord ..), aField_mkRecord, dField_mkRecord]

theorem decode_mkRecord_write {a : RegIndex} (ha : a ≠ 0) (d : Word) :
    decode (mkRecord 0b10 a d) = .ok (.regWrite a d) := by
  rw [decode_of_op_write (opField_mkRecord ..) (by rwa [aField_mkRecord]), aField_mkRecord, dField_mkRecord]

theorem decode_mkRecord_command (d : Word) : decode (mkRecord 0b10 0 d) = .ok (decodeCommand d) := by
  rw [decode_of_command (opField_mkRecord ..) (aField_mkRecord ..), dField_mkRecord]

/-! ### The indices without a register, and those that ignore writes (R24) -/

theorem RegName.ofIndex_reserved :
    ∀ a : RegIndex, (a = 3 ∨ a = 11 ∨ a = 21 ∨ a = 22 ∨ a = 23 ∨ 33 ≤ a) → RegName.ofIndex a = none := by decide

/-- Every index that R92 says a write leaves without effect is reserved or has a read-only register. -/
theorem RegName.access_ofIndex_of_ignored :
    ∀ a : RegIndex, (a = 1 ∨ a = 2 ∨ a = 3 ∨ a = 11 ∨ 21 ≤ a) → ∀ r ∈ RegName.ofIndex a, r.access = .ro := by decide

namespace Machine

theorem readValue_of_reserved {a : RegIndex} (h : RegName.ofIndex a = none) (b : Block) : readValue b a = 0 := by
  simp only [readValue, h]

theorem writeReg_of_ro {r : RegName} (h : r.access = .ro) (b : Block) (d : Word) : writeReg b r d = b := by
  cases r with
  | cmd => cases h
  | coef i => cases h
  | d1 => cases h
  | d2 => cases h
  | frame k => cases h
  | baseline => cases h
  | _ => rfl

theorem regWrite_of_ignored {a : RegIndex} (h : ∀ r ∈ RegName.ofIndex a, r.access = .ro) (b : Block) (d : Word) :
    regWrite b a d = b := by
  unfold regWrite
  split
  · next r hr => exact writeReg_of_ro (h r hr) b d
  · rfl

theorem readValue_status (b : Block) : readValue b 1 = statusWord b := readValue_index b .status

theorem readValue_crc (b : Block) : readValue b 2 = crcWord b := readValue_index b .crc

/-! ### The bit places of STATUS and CRC (R27, R29) -/

theorem zero_append_eq_setWidth {n v : Nat} (x : BitVec v) : 0#n ++ x = x.setWidth (n + v) := by
  rw [BitVec.setWidth_eq_append (Nat.le_add_left v n)]
  ext i hi
  simp [BitVec.getElem_append]

theorem setWidth_append_eq_setWidth {k v w : Nat} (x : BitVec v) (y : BitVec w) :
    x.setWidth k ++ y = (x ++ y).setWidth (k + w) := by
  rw [BitVec.setWidth_append_of_eq rfl, BitVec.setWidth_eq]

/-- Bits 7:0 of STATUS: the seven flags below the zero bit 7 (R27). -/
def statusFlags (b : Block) : BitVec 8 :=
  0#1 ++ BitVec.ofBool b.wlock ++ BitVec.ofBool b.hCrcOk ++ BitVec.ofBool b.tCrcOk
    ++ BitVec.ofBool b.altValid ++ BitVec.ofBool b.htValid ++ BitVec.ofBool b.ptValid ++ BitVec.ofBool b.calValid

theorem statusWord_eq_append (b : Block) : statusWord b = 0#20 ++ b.err ++ statusFlags b := by
  simp only [statusWord, statusFlags, BitVec.append_assoc, BitVec.cast_eq]

theorem statusWord_eq_setWidth (b : Block) :
    statusWord b = (b.err ++ 0#1 ++ BitVec.ofBool b.wlock ++ BitVec.ofBool b.hCrcOk ++ BitVec.ofBool b.tCrcOk
      ++ BitVec.ofBool b.altValid ++ BitVec.ofBool b.htValid ++ BitVec.ofBool b.ptValid
      ++ BitVec.ofBool b.calValid).setWidth 32 := by
  simp only [statusWord, zero_append_eq_setWidth, setWidth_append_eq_setWidth]

theorem crcWord_eq_setWidth (b : Block) :
    crcWord b = (b.crc8H ++ b.crc8T ++ b.crc4Stored ++ b.crc4Calc).setWidth 32 := by
  simp only [crcWord, zero_append_eq_setWidth, setWidth_append_eq_setWidth]

/-- Writing ERR replaces bits 11:8 of STATUS and no other bit. -/
theorem statusWord_with_err (b : Block) (e : BitVec 4) :
    statusWord { b with err := e } = (statusWord b &&& 0xFFFFF0FF) ||| (0#20 ++ e ++ 0#8) := by
  have mask : (0xFFFFF0FF : Word) = BitVec.allOnes 20 ++ 0#4 ++ BitVec.allOnes 8 := by decide
  calc statusWord { b with err := e }
      = 0#20 ++ e ++ statusFlags b := statusWord_eq_append _
    _ = ((0#20 ++ b.err ++ statusFlags b) &&& (BitVec.allOnes 20 ++ 0#4 ++ BitVec.allOnes 8))
          ||| (0#20 ++ e ++ 0#8) := by
      simp only [BitVec.and_append, BitVec.or_append, BitVec.and_allOnes, BitVec.and_zero, BitVec.zero_or,
        BitVec.or_zero]
    _ = (statusWord b &&& 0xFFFFF0FF) ||| (0#20 ++ e ++ 0#8) := by rw [statusWord_eq_append, mask]

theorem statusWord_err (b : Block) : (statusWord b).extractLsb' 8 4 = b.err := by
  rw [statusWord_eq_append, BitVec.extractLsb'_append_eq_of_le (Nat.le_refl 8)]
  exact BitVec.extractLsb'_append_eq_right

theorem statusWord_bit7 (b : Block) : (statusWord b).getLsbD 7 = false := by
  simp only [statusWord, BitVec.getLsbD_append]
  simp

theorem statusWord_calValid (b : Block) : (statusWord b).getLsbD 0 = b.calValid := by
  simp only [statusWord, BitVec.getLsbD_append]
  simp

theorem crcWord_crc4Calc (b : Block) : (crcWord b).extractLsb' 0 4 = b.crc4Calc :=
  BitVec.extractLsb'_append_eq_right

theorem crcWord_crc4Stored (b : Block) : (crcWord b).extractLsb' 4 4 = b.crc4Stored := by
  rw [crcWord, BitVec.extractLsb'_append_eq_of_le (Nat.le_refl 4)]
  exact BitVec.extractLsb'_append_eq_right

theorem crcWord_crc8T (b : Block) : (crcWord b).extractLsb' 8 8 = b.crc8T := by
  rw [crcWord, BitVec.extractLsb'_append_eq_of_le (by decide), BitVec.extractLsb'_append_eq_of_le (Nat.le_refl 4)]
  exact BitVec.extractLsb'_append_eq_right

theorem crcWord_crc8H (b : Block) : (crcWord b).extractLsb' 16 8 = b.crc8H := by
  rw [crcWord, BitVec.extractLsb'_append_eq_of_le (by decide), BitVec.extractLsb'_append_eq_of_le (by decide),
    BitVec.extractLsb'_append_eq_of_le (Nat.le_refl 8)]
  exact BitVec.extractLsb'_append_eq_right

/-! ### The whole next state of each transaction -/

theorem exec_regRead_eq (a : RegIndex) (d : Word) (s : State) :
    exec (.regRead a d) s = .next { s with response := some (readValue s.block a) } := rfl

theorem exec_regWrite_index_eq (r : RegName) (d : Word) (s : State) :
    exec (.regWrite r.index d) s = .next { s with block := writeReg s.block r d } := by
  rw [exec_regWrite_eq, regWrite_index]
  rfl

theorem exec_regWrite_of_ignored {a : RegIndex} (h : ∀ r ∈ RegName.ofIndex a, r.access = .ro) (d : Word) (s : State) :
    exec (.regWrite a d) s = .next s := by
  rw [exec_regWrite_eq, regWrite_of_ignored h]
  rfl

theorem exec_illegalCmd_eq (d : Word) (s : State) :
    exec (.illegalCmd d) s = .next { s with block := { s.block with err := 6 } } := by
  rw [exec_command_eq rfl, blockAfter, illegalCmd_eq]
  rfl

/-! ### The statements -/

/-- Settles O2: the register of each index, then the fields of the STATUS and CRC words. -/
theorem readValueOfEveryIndex : Obligations.ReadValueOfEveryIndex := by
  intro b
  rw [readValue_status, readValue_crc]
  exact ⟨readValue_cmd b,
    statusWord_eq_setWidth b, statusWord_err b, statusWord_bit7 b, statusWord_calValid b,
    crcWord_eq_setWidth b, crcWord_crc4Calc b, crcWord_crc4Stored b, crcWord_crc8T b, crcWord_crc8H b,
    fun i => readValue_index b (.coef i), readValue_index b .d1, readValue_index b .d2,
    fun k => readValue_index b (.frame k), readValue_index b .baseline,
    readValue_index b .tempI, readValue_index b .presI, readValue_index b .tempF, readValue_index b .presF,
    readValue_index b .htTempN, readValue_index b .htHumN, readValue_index b .htTempF, readValue_index b .htHumF,
    readValue_index b .altF, fun a ha => readValue_of_reserved (RegName.ofIndex_reserved a ha) b⟩

/-- Settles O1: the read's whole next state, and the registers R90 names by what their indices read as. -/
theorem regReadReturnsReadValue : Obligations.RegReadReturnsReadValue := by
  intro a d s
  have resetStatus : readValue State.reset.block 1 = 0 := by decide
  exact ⟨decode_mkRecord_read a d, exec_regRead_eq a d s, readValue_cmd s.block,
    fun ha => readValue_of_reserved (RegName.ofIndex_reserved a ha) s.block,
    readValue_index s.block .tempI, readValue_index s.block .presI, readValue_index s.block .tempF,
    readValue_index s.block .presF, readValue_index s.block .htTempN, readValue_index s.block .htHumN,
    readValue_index s.block .htTempF, readValue_index s.block .htHumF, readValue_index s.block .altF,
    by rw [exec_regRead_eq, resetStatus]⟩

/-- Settles O3: a write of a register is `writeReg`, and every other index has a read-only register or none. -/
theorem regWriteStoresByRegister : Obligations.RegWriteStoresByRegister := by
  intro d s
  exact ⟨fun a ha => decode_mkRecord_write ha d,
    exec_regWrite_index_eq .cmd d s,
    fun i => exec_regWrite_index_eq (.coef i) d s,
    exec_regWrite_index_eq .d1 d s, exec_regWrite_index_eq .d2 d s,
    fun k => exec_regWrite_index_eq (.frame k) d s,
    exec_regWrite_index_eq .baseline d s,
    fun a ha => exec_regWrite_of_ignored (RegName.access_ofIndex_of_ignored a ha) d s,
    exec_regWrite_index_eq .d1 0xFF123456 s,
    exec_regWrite_index_eq (.frame 2) 0x1A5 s⟩

/-- Settles O35: a word that selects no command, the write of ERR alone, and what that does to STATUS. -/
theorem illegalCommandWritesErrOnly : Obligations.IllegalCommandWritesErrOnly := by
  refine ⟨?decodes, exec_illegalCmd_eq, by decide, by decide, ?status⟩
  case decodes =>
    intro d hd
    rw [decode_mkRecord_command, decodeCommand_of_not_selects hd]
  case status =>
    intro s
    refine ⟨_, exec_illegalCmd_eq 0x7 s, ?_⟩
    rw [readValue_status, readValue_status]
    exact statusWord_with_err s.block 6

end Machine

end Sys2Proof
end

section
/-!
PROOFS. The coefficient table (41_calibration.md): the bytes its CRC-4 covers and the loop that computes it, CAL_VALIDATE
on a match and on a mismatch, and the lock.
-/

namespace Sys2Proof.Machine

/-! ### The stream of bytes (R101) -/

/-- The mask on C[0] clears the checksum nibble of its high byte and leaves its low byte (R100). -/
theorem bytesOf_and_mask (w : Coef) : bytesOf (w &&& 0x0FFF) = [w.extractLsb' 8 8 &&& 0x0F, w.extractLsb' 0 8] := by
  have high : (0x0FFF : Coef).extractLsb' 8 8 = 0x0F := by decide
  have low : (0x0FFF : Coef).extractLsb' 0 8 = BitVec.allOnes 8 := by decide
  rw [bytesOf, BitVec.extractLsb'_and, BitVec.extractLsb'_and, high, low, BitVec.and_allOnes]

theorem crc4Stream_eq_append (C : CoefTable) :
    crc4Stream C = bytesOf (C[0] &&& 0x0FFF) ++ [C[1], C[2], C[3], C[4], C[5], C[6], 0x0000].flatMap bytesOf := rfl

/-! ### The loop over the entry counter (R100) -/

/-- n[0..7] as R100 numbers them. -/
def loopTable (C : CoefTable) : Vector (BitVec 16) 8 :=
  #v[C[0] &&& 0x0FFF, C[1], C[2], C[3], C[4], C[5], C[6], 0x0000]

/-- The byte R100's loop takes at a count: the high byte of its slot where the count is even, the low byte where it is
odd. -/
def loopByte (C : CoefTable) (cnt : Fin 16) : BitVec 8 :=
  if cnt.val % 2 = 0 then (loopTable C)[cnt.val / 2].extractLsb' 8 8
  else (loopTable C)[(cnt.val - 1) / 2].extractLsb' 0 8

/-- One of the eight steps R100 makes at a count. -/
def loopBit (rem : BitVec 16) : BitVec 16 := if rem.getLsbD 15 then (rem <<< 1) ^^^ 0x3000 else rem <<< 1

/-- What R100's loop does at a count. -/
def loopEntry (C : CoefTable) (rem : BitVec 16) (cnt : Fin 16) : BitVec 16 :=
  loopBit (loopBit (loopBit (loopBit (loopBit (loopBit (loopBit (loopBit (rem ^^^ (loopByte C cnt).setWidth 16))))))))

/-- In the order of the counter, the loop takes the bytes of the stream. -/
theorem crc4Stream_eq_map_loopByte (C : CoefTable) : crc4Stream C = (List.finRange 16).map (loopByte C) := rfl

theorem crcBit_eq_loopBit : crcBit 0x3000#16 = loopBit := by
  funext rem
  rw [crcBit, BitVec.msb_eq_getLsbD_last]
  rfl

theorem crcByte_loopByte (C : CoefTable) (rem : BitVec 16) (cnt : Fin 16) :
    crcByte 0x3000#16 rem (loopByte C cnt) = loopEntry C rem cnt := by
  rw [crcByte, crcShift8, crcBit_eq_loopBit]
  rfl

theorem crc4Remainder_eq_foldl_loopEntry (C : CoefTable) :
    crc4Remainder (crc4Stream C) = (List.finRange 16).foldl (loopEntry C) 0x0000 := by
  simp only [crc4Remainder, crc4Stream_eq_map_loopByte, List.foldl_map, crcByte_loopByte]
  rfl

/-! ### CAL_VALIDATE (R102, R103) -/

theorem calValidate_of_match {b : Block} (h : crc4 b.coef = storedChecksum b.coef) : calValidate b =
    { b with crc4Calc := crc4 b.coef, crc4Stored := storedChecksum b.coef, calValid := true, err := 0 } := by
  obtain ⟨-, hb⟩ | ⟨hv, -⟩ := calValidate_cases b
  · exact hb
  · simp [(tableValid_iff b.coef).2 h] at hv

theorem calValidate_of_mismatch {b : Block} (h : crc4 b.coef ≠ storedChecksum b.coef) : calValidate b =
    { b with crc4Calc := crc4 b.coef, crc4Stored := storedChecksum b.coef, calValid := false, err := 1 } := by
  obtain ⟨hv, -⟩ | ⟨-, hb⟩ := calValidate_cases b
  · exact absurd ((tableValid_iff b.coef).1 hv) h
  · exact hb

theorem exec_calValidate_eq (s : State) : exec .calValidate s = .next { s with block := calValidate s.block } := rfl

theorem exec_calValidate_of_match {s : State} (h : crc4 s.block.coef = storedChecksum s.block.coef) :
    exec .calValidate s = .next { s with block := { s.block with
      crc4Calc := crc4 s.block.coef, crc4Stored := storedChecksum s.block.coef, calValid := true, err := 0 } } := by
  rw [exec_calValidate_eq, calValidate_of_match h]

theorem exec_calValidate_of_mismatch {s : State} (h : crc4 s.block.coef ≠ storedChecksum s.block.coef) :
    exec .calValidate s = .next { s with block := { s.block with
      crc4Calc := crc4 s.block.coef, crc4Stored := storedChecksum s.block.coef, calValid := false, err := 1 } } := by
  rw [exec_calValidate_eq, calValidate_of_mismatch h]

/-- Corner case 1 of R103: the all-zero table is valid. -/
theorem reset_table_matches : crc4 Block.reset.coef = storedChecksum Block.reset.coef := by decide +kernel

/-- The table of R103's example computes and stores the nibble 0xA. -/
theorem exampleTable_checksums {C : CoefTable} (hC : C = #v[0xA0C5, 45000, 42000, 28000, 26000, 32000, 28000]) :
    crc4 C = 0xA ∧ storedChecksum C = 0xA := by
  subst hC
  decide +kernel

/-- Where both CRC-8 fields are 0, CRC reads as the two CRC-4 nibbles (R29). -/
theorem crcWord_of_crc8_zero {b : Block} {x y : BitVec 4} (hT : b.crc8T = 0) (hH : b.crc8H = 0)
    (hs : b.crc4Stored = x) (hc : b.crc4Calc = y) : crcWord b = 0#24 ++ x ++ y := by
  rw [crcWord, hT, hH, hs, hc]
  rfl

/-! ### The lock (R104, R105) -/

theorem coefWrite_of_locked {b : Block} (h : b.calValid = true) (i : Fin 7) (d : Word) :
    coefWrite b i d = { b with wlock := true } := if_pos h

theorem coefWrite_of_unlocked {b : Block} (h : b.calValid = false) (i : Fin 7) (d : Word) :
    coefWrite b i d = { b with coef := b.coef.set i (keptCoef d) } := if_neg (by simp [h])

/-- A validated table is locked and stays so: `b'` keeps CAL_VALID and every coefficient of `b` (R104). -/
def Block.KeepsLock (b b' : Block) : Prop := b'.calValid = true ∧ b'.coef = b.coef

section Locked

variable {b : Block} (locked : b.calValid = true) (valid : tableValid b.coef = true)
include locked valid

/-- Of the commands only CAL_VALIDATE writes CAL_VALID, and on a valid table it sets it. -/
theorem command_keepsLock {i : Instr} (hi : isCommand i = true) : b.KeepsLock (blockAfter i b) := by
  refine ⟨?_, (command_keepsInputs hi b).coef⟩
  cases i with
  | regRead a d => cases hi
  | regWrite a d => cases hi
  | calValidate => rw [blockAfter, calValidate_of_match ((tableValid_iff b.coef).1 valid)]
  | ptConvert => obtain ⟨-, h⟩ | ⟨-, h⟩ := ptConvert_cases b <;> rw [blockAfter, h, locked]
  | htDecode => obtain ⟨-, h⟩ | ⟨-, h⟩ := htDecode_cases b <;> rw [blockAfter, h, locked]
  | altCompute => obtain ⟨-, h⟩ | ⟨-, -, h⟩ | ⟨-, -, h⟩ := altCompute_cases b <;> rw [blockAfter, h, locked]
  | illegalCmd d => rw [blockAfter, illegalCmd_eq, locked]

theorem regWrite_keepsLock (a : RegIndex) (d : Word) : b.KeepsLock (regWrite b a d) := by
  obtain ⟨-, h⟩ | ⟨i, -, h⟩ | ⟨-, h⟩ | ⟨-, h⟩ | ⟨k, -, h⟩ | ⟨-, h⟩ | h := regWrite_cases b a d <;> rw [h]
  case inl =>
    rw [← blockAfter_decodeCommand]
    exact command_keepsLock locked valid (isCommand_decodeCommand d)
  case inr.inl =>
    rw [coefWrite_of_locked locked]
    exact ⟨locked, rfl⟩
  all_goals exact ⟨locked, rfl⟩

theorem blockAfter_keepsLock (i : Instr) : b.KeepsLock (blockAfter i b) := by
  cases i with
  | regRead a d => exact ⟨locked, rfl⟩
  | regWrite a d => exact regWrite_keepsLock locked valid a d
  | _ => exact command_keepsLock locked valid rfl

end Locked

/-- A step that is no reset keeps a locked valid table locked, with its coefficients (R104). -/
theorem step_keepsLock_or_reset {s t : State} (locked : s.block.calValid = true)
    (valid : tableValid s.block.coef = true) (h : step s = .next t) :
    s.block.KeepsLock t.block ∨ ∃ rest, s.pending = .reset :: rest := by
  obtain ⟨-, rfl⟩ | ⟨e, rest, i, -, -, hx⟩ | ⟨e, rest, hp, hd, -⟩ := step_cases h
  · exact .inl ⟨locked, rfl⟩
  · obtain ⟨u, hu, hb, -⟩ := exec_next i (s.accept rest)
    obtain rfl : u = t := by simpa [hu] using hx
    rw [hb]
    exact .inl (blockAfter_keepsLock locked valid i)
  · exact .inr ⟨rest, by rw [hp, deliver_reset hd]⟩

/-! ### The statements -/

/-- Settles O12: both outcomes of a coefficient write, the frame of a failed validation, and the steps of a locked table. -/
theorem coefficientLock : Obligations.CoefficientLock := by
  refine ⟨?lockedWrite, ?unlockedWrite, ?failedValidation, ?unlockingStep⟩
  case lockedWrite =>
    intro i d s hv
    exact (exec_regWrite_index_eq (.coef i) d s).trans (by rw [writeReg, coefWrite_of_locked hv])
  case unlockedWrite =>
    intro i d s hv
    exact (exec_regWrite_index_eq (.coef i) d s).trans (by rw [writeReg, coefWrite_of_unlocked hv, keptCoef])
  case failedValidation =>
    intro s t hm ht
    rw [exec_calValidate_of_mismatch hm] at ht
    cases ht
    exact ⟨rfl, rfl⟩
  case unlockingStep =>
    intro s t hi hv hstep ht
    obtain ⟨hk, -⟩ | hreset := step_keepsLock_or_reset hv (hi.locked_valid hv) hstep
    · simp [hk] at ht
    · exact hreset

/-- Settles O9: the mask acts on the first pair of bytes alone. -/
theorem crc4StreamBytes : Obligations.Crc4StreamBytes := by
  intro C
  rw [crc4Stream_eq_append, bytesOf_and_mask]
  rfl

/-- Settles O10: the loop takes the stream's bytes in order and makes the model's eight steps on each. -/
theorem crc4IsTheLoopOfTheRule : Obligations.Crc4IsTheLoopOfTheRule := by
  intro C
  exact congrArg (BitVec.extractLsb' 12 4) (crc4Remainder_eq_foldl_loopEntry C)

/-- Settles O11: CAL_VALIDATE on a match and on a mismatch, and three tables that match. -/
theorem calValidateChecksTheTable : Obligations.CalValidateChecksTheTable := by
  refine ⟨by decide, fun s => exec_calValidate_of_match, fun s => exec_calValidate_of_mismatch, ?reset, ?again, ?vector⟩
  case reset => exact ⟨_, exec_calValidate_of_match reset_table_matches, rfl, rfl⟩
  case again =>
    intro s hi hv
    exact ⟨_, exec_calValidate_of_match ((tableValid_iff _).1 (hi.locked_valid hv)), rfl, rfl⟩
  case vector =>
    intro s hC
    obtain ⟨hcalc, hstored⟩ := exampleTable_checksums hC
    refine ⟨_, exec_calValidate_of_match (by rw [hcalc, hstored]), rfl, rfl, fun hT hH => ?_⟩
    rw [readValue_crc]
    exact Eq.trans (crcWord_of_crc8_zero hT hH hstored hcalc) (by decide)

end Sys2Proof.Machine
end

section
/-!
PROOFS. The compensation (42_compensation.md): the corrections of each band of the first-order TEMP, the polynomial as
R121 writes it, the bounds that keep TEMP and P in s32 (R131), and PT_CONVERT.
-/

namespace Sys2Proof.Machine

/-! ### Division and shift (R11) -/

theorem asr_eq_fdiv (a : Int) (k : Nat) : asr a k = a.fdiv (2 ^ k) := by
  rw [asr_eq_div, Int.fdiv_eq_ediv_of_nonneg a (by positivity)]

theorem tdiv_mono {a b c : Int} (hc : 0 < c) (h : a ≤ b) : tdiv a c ≤ tdiv b c := Int.tdiv_le_tdiv hc h

theorem tdiv_of_nonneg {a : Int} (h : 0 ≤ a) (b : Int) : tdiv a b = a / b := Int.tdiv_eq_ediv_of_nonneg h

/-! ### The corrections of each band (R124) -/

theorem corrections_of_ge (dT : Int) {temp1 : Int} (h : 2000 ≤ temp1) : corrections dT temp1 = (0, 0, 0) := by
  obtain ⟨-, hc⟩ | ⟨-, h', -⟩ | ⟨h', -⟩ := corrections_cases dT temp1
  · exact hc
  · omega
  · omega

theorem corrections_of_first (dT : Int) {temp1 : Int} (hl : -1500 ≤ temp1) (hu : temp1 < 2000) :
    corrections dT temp1 =
      (asr (dT * dT) 31, tdiv (5 * (temp1 - 2000) ^ 2) 2, tdiv (5 * (temp1 - 2000) ^ 2) 4) := by
  obtain ⟨h', -⟩ | ⟨-, -, hc⟩ | ⟨h', -⟩ := corrections_cases dT temp1
  · omega
  · exact hc
  · omega

theorem corrections_of_both (dT : Int) {temp1 : Int} (h : temp1 < -1500) : corrections dT temp1 =
    (asr (dT * dT) 31, tdiv (5 * (temp1 - 2000) ^ 2) 2 + 7 * (temp1 + 1500) ^ 2,
      tdiv (5 * (temp1 - 2000) ^ 2) 4 + tdiv (11 * (temp1 + 1500) ^ 2) 2) := by
  obtain ⟨h', -⟩ | ⟨h', -⟩ | ⟨-, hc⟩ := corrections_cases dT temp1
  · omega
  · omega
  · exact hc

/-- The corrections one by one, each with its own condition, as R121's pseudocode leaves them. -/
theorem corrections_eq_ite (dT temp1 : Int) : corrections dT temp1 =
    (if temp1 < 2000 then Int.fdiv (dT * dT) 2147483648 else 0,
      if temp1 < -1500 then
        Int.tdiv (5 * ((temp1 - 2000) * (temp1 - 2000))) 2 + 7 * ((temp1 + 1500) * (temp1 + 1500))
      else if temp1 < 2000 then Int.tdiv (5 * ((temp1 - 2000) * (temp1 - 2000))) 2 else 0,
      if temp1 < -1500 then
        Int.tdiv (5 * ((temp1 - 2000) * (temp1 - 2000))) 4 + Int.tdiv (11 * ((temp1 + 1500) * (temp1 + 1500))) 2
      else if temp1 < 2000 then Int.tdiv (5 * ((temp1 - 2000) * (temp1 - 2000))) 4 else 0) := by
  have ht2 : asr (dT * dT) 31 = Int.fdiv (dT * dT) 2147483648 := asr_eq_fdiv (dT * dT) 31
  obtain ⟨h, hc⟩ | ⟨hl, hu, hc⟩ | ⟨h, hc⟩ := corrections_cases dT temp1 <;> rw [hc]
  · rw [if_neg (by omega), if_neg (by omega), if_neg (by omega), if_neg (by omega), if_neg (by omega)]
  · rw [if_pos hu, if_neg (by omega), if_pos hu, if_neg (by omega), if_pos hu, ht2, pow_two]
    rfl
  · rw [if_pos (by omega), if_pos h, if_pos h, ht2, pow_two, pow_two]
    rfl

/-! ### The named intermediates (R121) -/

section Terms

variable (C : CoefTable) (d1 d2 : Count)

theorem compTerms_dT : (compTerms C d1 d2).dT = d2.toNat - C[5].toNat * 2 ^ 8 := rfl

theorem compTerms_temp1 :
    (compTerms C d1 d2).temp1 = 2000 + tdiv ((compTerms C d1 d2).dT * C[6].toNat) (2 ^ 23) := rfl

theorem compTerms_off1 :
    (compTerms C d1 d2).off1 = C[2].toNat * 2 ^ 17 + tdiv (C[4].toNat * (compTerms C d1 d2).dT) (2 ^ 6) := rfl

theorem compTerms_sens1 :
    (compTerms C d1 d2).sens1 = C[1].toNat * 2 ^ 16 + tdiv (C[3].toNat * (compTerms C d1 d2).dT) (2 ^ 7) := rfl

theorem compTerms_corrections : corrections (compTerms C d1 d2).dT (compTerms C d1 d2).temp1 =
    ((compTerms C d1 d2).t2, (compTerms C d1 d2).off2, (compTerms C d1 d2).sens2) := rfl

theorem compTerms_temp : (compTerms C d1 d2).temp = (compTerms C d1 d2).temp1 - (compTerms C d1 d2).t2 := rfl

theorem compTerms_off : (compTerms C d1 d2).off = (compTerms C d1 d2).off1 - (compTerms C d1 d2).off2 := rfl

theorem compTerms_sens : (compTerms C d1 d2).sens = (compTerms C d1 d2).sens1 - (compTerms C d1 d2).sens2 := rfl

theorem compTerms_p : (compTerms C d1 d2).p =
    asr (asr (d1.toNat * (compTerms C d1 d2).sens) 21 - (compTerms C d1 d2).off) 15 := rfl

theorem compensate_eq : compensate C d1 d2 = ((compTerms C d1 d2).temp, (compTerms C d1 d2).p) := rfl

end Terms

section Bands

variable {C : CoefTable} {d1 d2 : Count}

theorem compTerms_of_ge (h : 2000 ≤ (compTerms C d1 d2).temp1) :
    (compTerms C d1 d2).t2 = 0 ∧ (compTerms C d1 d2).off2 = 0 ∧ (compTerms C d1 d2).sens2 = 0 := by
  have hc := (compTerms_corrections C d1 d2).symm.trans (corrections_of_ge _ h)
  simpa only [Prod.mk.injEq] using hc

theorem compTerms_of_first (hl : -1500 ≤ (compTerms C d1 d2).temp1) (hu : (compTerms C d1 d2).temp1 < 2000) :
    (compTerms C d1 d2).t2 = asr ((compTerms C d1 d2).dT * (compTerms C d1 d2).dT) 31 ∧
    (compTerms C d1 d2).off2 = tdiv (5 * ((compTerms C d1 d2).temp1 - 2000) ^ 2) 2 ∧
    (compTerms C d1 d2).sens2 = tdiv (5 * ((compTerms C d1 d2).temp1 - 2000) ^ 2) 4 := by
  have hc := (compTerms_corrections C d1 d2).symm.trans (corrections_of_first _ hl hu)
  simpa only [Prod.mk.injEq] using hc

theorem compTerms_of_both (h : (compTerms C d1 d2).temp1 < -1500) :
    (compTerms C d1 d2).t2 = asr ((compTerms C d1 d2).dT * (compTerms C d1 d2).dT) 31 ∧
    (compTerms C d1 d2).off2 =
      tdiv (5 * ((compTerms C d1 d2).temp1 - 2000) ^ 2) 2 + 7 * ((compTerms C d1 d2).temp1 + 1500) ^ 2 ∧
    (compTerms C d1 d2).sens2 =
      tdiv (5 * ((compTerms C d1 d2).temp1 - 2000) ^ 2) 4 + tdiv (11 * ((compTerms C d1 d2).temp1 + 1500) ^ 2) 2 := by
  have hc := (compTerms_corrections C d1 d2).symm.trans (corrections_of_both _ h)
  simpa only [Prod.mk.injEq] using hc

end Bands

/-! ### The bounds (R131) -/

/-- The rows that R131 gives for the corrections, OFF2 and SENS2 as sharp as the rows of OFF and SENS need. -/
theorem corrections_bounds {dT temp1 : Int} (hd : -16776960 ≤ dT) (hneg : temp1 < 2000 → dT ≤ 0)
    (ht : -129068 ≤ temp1) {t2 off2 sens2 : Int} (hc : corrections dT temp1 = (t2, off2, sens2)) :
    (0 ≤ t2 ∧ t2 ≤ 131068) ∧ (0 ≤ off2 ∧ off2 ≤ 2 ^ 38 - 2 ^ 35) ∧ 0 ≤ sens2 ∧ sens2 ≤ 2 ^ 37 - 2 ^ 34 := by
  obtain h | h := le_or_gt 2000 temp1
  · simp only [corrections_of_ge dT h, Prod.mk.injEq] at hc
    omega
  have hdT : 0 ≤ dT * dT ∧ dT * dT ≤ 16776960 * 16776960 := by
    have hle : |dT| ≤ |16776960| := abs_le_abs (by have := hneg h; omega) (by omega)
    exact ⟨mul_self_nonneg dT, abs_le_iff_mul_self_le.1 hle⟩
  have hbelow : 0 ≤ (temp1 - 2000) ^ 2 ∧ (temp1 - 2000) ^ 2 ≤ 131068 ^ 2 :=
    ⟨sq_nonneg _, sq_le_sq' (by omega) (by omega)⟩
  have hfirst : 0 ≤ 5 * (temp1 - 2000) ^ 2 := by omega
  obtain h' | h' := le_or_gt (-1500) temp1
  · simp only [corrections_of_first dT h' h, Prod.mk.injEq, asr_eq_div, tdiv_of_nonneg hfirst] at hc
    omega
  · have hfarBelow : 0 ≤ (temp1 + 1500) ^ 2 ∧ (temp1 + 1500) ^ 2 ≤ 127568 ^ 2 :=
      ⟨sq_nonneg _, sq_le_sq' (by omega) (by omega)⟩
    have hsecond : 0 ≤ 11 * (temp1 + 1500) ^ 2 := by omega
    simp only [corrections_of_both dT h', Prod.mk.injEq, asr_eq_div, tdiv_of_nonneg hfirst,
      tdiv_of_nonneg hsecond] at hc
    omega

section Bounds

variable (C : CoefTable) (d1 d2 : Count)

theorem compTerms_dT_bounds : -16776960 ≤ (compTerms C d1 d2).dT ∧ (compTerms C d1 d2).dT ≤ 16777215 := by
  have h5 := C[5].isLt
  have hd := d2.isLt
  rw [compTerms_dT]
  omega

/-- A coefficient times dT, which is how C[3], C[4] and C[6] enter the polynomial. -/
theorem coef_mul_dT_bounds (c : Coef) :
    -16776960 * 65535 ≤ c.toNat * (compTerms C d1 d2).dT ∧ c.toNat * (compTerms C d1 d2).dT ≤ 16777215 * 65535 := by
  obtain ⟨hl, hu⟩ := compTerms_dT_bounds C d1 d2
  have hc : (c.toNat : Int) ≤ 65535 := by have := c.isLt; omega
  constructor <;> nlinarith

/-- The same product after the division by a power of two. -/
theorem tdiv_coef_mul_dT_bounds (c : Coef) {m : Int} (hm : 0 < m) :
    tdiv (-16776960 * 65535) m ≤ tdiv (c.toNat * (compTerms C d1 d2).dT) m ∧
      tdiv (c.toNat * (compTerms C d1 d2).dT) m ≤ tdiv (16777215 * 65535) m :=
  ⟨tdiv_mono hm (coef_mul_dT_bounds C d1 d2 c).1, tdiv_mono hm (coef_mul_dT_bounds C d1 d2 c).2⟩

theorem compTerms_temp1_bounds : -129068 ≤ (compTerms C d1 d2).temp1 ∧ (compTerms C d1 d2).temp1 ≤ 133069 := by
  have low : tdiv (-16776960 * 65535) (2 ^ 23) = -131068 := by decide
  have high : tdiv (16777215 * 65535) (2 ^ 23) = 131069 := by decide
  have h := tdiv_coef_mul_dT_bounds C d1 d2 C[6] (m := 2 ^ 23) (by norm_num)
  rw [compTerms_temp1, mul_comm]
  omega

theorem compTerms_off1_bounds : -2 ^ 35 < (compTerms C d1 d2).off1 ∧ (compTerms C d1 d2).off1 < 2 ^ 35 := by
  have low : -2 ^ 34 < tdiv (-16776960 * 65535) (2 ^ 6) := by decide
  have high : tdiv (16777215 * 65535) (2 ^ 6) < 2 ^ 34 := by decide
  have h := tdiv_coef_mul_dT_bounds C d1 d2 C[4] (m := 2 ^ 6) (by norm_num)
  have h2 := C[2].isLt
  rw [compTerms_off1]
  omega

theorem compTerms_sens1_bounds : -2 ^ 34 < (compTerms C d1 d2).sens1 ∧ (compTerms C d1 d2).sens1 < 2 ^ 34 := by
  have low : -2 ^ 33 < tdiv (-16776960 * 65535) (2 ^ 7) := by decide
  have high : tdiv (16777215 * 65535) (2 ^ 7) < 2 ^ 33 := by decide
  have h := tdiv_coef_mul_dT_bounds C d1 d2 C[3] (m := 2 ^ 7) (by norm_num)
  have h1 := C[1].isLt
  rw [compTerms_sens1]
  omega

/-- The branches are taken only where dT is negative, which is why T2 stays below its bound at dT = −16776960. -/
theorem compTerms_dT_nonpos_of_temp1_lt (h : (compTerms C d1 d2).temp1 < 2000) : (compTerms C d1 d2).dT ≤ 0 := by
  by_contra hpos
  have hprod : 0 ≤ (compTerms C d1 d2).dT * (C[6].toNat : Int) := mul_nonneg (by omega) (by omega)
  have hdiv : 0 ≤ tdiv ((compTerms C d1 d2).dT * C[6].toNat) (2 ^ 23) := Int.tdiv_nonneg hprod (by norm_num)
  rw [compTerms_temp1] at h
  omega

theorem compTerms_corrections_bounds :
    (0 ≤ (compTerms C d1 d2).t2 ∧ (compTerms C d1 d2).t2 ≤ 131068) ∧
    (0 ≤ (compTerms C d1 d2).off2 ∧ (compTerms C d1 d2).off2 ≤ 2 ^ 38 - 2 ^ 35) ∧
    0 ≤ (compTerms C d1 d2).sens2 ∧ (compTerms C d1 d2).sens2 ≤ 2 ^ 37 - 2 ^ 34 :=
  corrections_bounds (compTerms_dT_bounds C d1 d2).1 (compTerms_dT_nonpos_of_temp1_lt C d1 d2)
    (compTerms_temp1_bounds C d1 d2).1 (compTerms_corrections C d1 d2)

theorem compTerms_temp_bounds : -260136 ≤ (compTerms C d1 d2).temp ∧ (compTerms C d1 d2).temp ≤ 133069 := by
  have h1 := compTerms_temp1_bounds C d1 d2
  obtain ⟨h2, -, -⟩ := compTerms_corrections_bounds C d1 d2
  rw [compTerms_temp]
  omega

theorem compTerms_off_natAbs_lt : (compTerms C d1 d2).off.natAbs < 2 ^ 38 := by
  have h1 := compTerms_off1_bounds C d1 d2
  obtain ⟨-, h2, -⟩ := compTerms_corrections_bounds C d1 d2
  rw [compTerms_off]
  omega

theorem compTerms_sens_natAbs_lt : (compTerms C d1 d2).sens.natAbs < 2 ^ 37 := by
  have h1 := compTerms_sens1_bounds C d1 d2
  obtain ⟨-, -, h2⟩ := compTerms_corrections_bounds C d1 d2
  rw [compTerms_sens]
  omega

theorem compTerms_d1_mul_sens_natAbs_lt : ((d1.toNat : Int) * (compTerms C d1 d2).sens).natAbs < 2 ^ 61 := by
  calc ((d1.toNat : Int) * (compTerms C d1 d2).sens).natAbs
      = d1.toNat * (compTerms C d1 d2).sens.natAbs := by rw [Int.natAbs_mul, Int.natAbs_natCast]
    _ < 2 ^ 24 * 2 ^ 37 := Nat.mul_lt_mul'' d1.isLt (compTerms_sens_natAbs_lt C d1 d2)
    _ = 2 ^ 61 := by norm_num

theorem compTerms_p_natAbs_lt : (compTerms C d1 d2).p.natAbs < 2 ^ 26 := by
  have hs := compTerms_d1_mul_sens_natAbs_lt C d1 d2
  have ho := compTerms_off_natAbs_lt C d1 d2
  rw [compTerms_p, asr_eq_div, asr_eq_div]
  omega

/-- TEMP and P fit s32, so the registers hold them exactly (R131). -/
theorem toInt_ofInt_compensate :
    (BitVec.ofInt 32 (compensate C d1 d2).1).toInt = (compensate C d1 d2).1 ∧
      (BitVec.ofInt 32 (compensate C d1 d2).2).toInt = (compensate C d1 d2).2 := by
  have ht := compTerms_temp_bounds C d1 d2
  have hp := compTerms_p_natAbs_lt C d1 d2
  rw [compensate_eq]
  constructor
  · exact BitVec.toInt_ofInt_eq_self (by norm_num) (by omega) (by omega)
  · exact BitVec.toInt_ofInt_eq_self (by norm_num) (by omega) (by omega)

end Bounds

/-! ### PT_CONVERT (R135) -/

theorem exec_ptConvert_of_valid {s : State} (h : s.block.calValid = true) :
    exec .ptConvert s = .next { s with block := { s.block with
      tempI := BitVec.ofInt 32 (compensate s.block.coef s.block.d1 s.block.d2).1
      presI := BitVec.ofInt 32 (compensate s.block.coef s.block.d1 s.block.d2).2
      tempF := f32 (compensate s.block.coef s.block.d1 s.block.d2).1 100
      presF := f32 (compensate s.block.coef s.block.d1 s.block.d2).2 100
      ptValid := true
      err := 0 } } := by
  obtain ⟨-, hb⟩ | ⟨h', -⟩ := ptConvert_cases s.block
  · exact (exec_command_eq rfl s).trans (by rw [blockAfter, hb]; rfl)
  · simp [h] at h'

theorem exec_ptConvert_of_invalid {s : State} (h : s.block.calValid = false) :
    exec .ptConvert s = .next { s with block := { s.block with ptValid := false, err := 2 } } := by
  obtain ⟨h', -⟩ | ⟨-, hb⟩ := ptConvert_cases s.block
  · simp [h] at h'
  · exact (exec_command_eq rfl s).trans (by rw [blockAfter, hb]; rfl)

/-- Corner case of R135: with D1 = 0 the product D1 × SENS contributes nothing. -/
theorem compTerms_p_of_d1_zero (C : CoefTable) (d2 : Count) :
    (compTerms C 0 d2).p = (-(compTerms C 0 d2).off) / 2 ^ 15 := by
  rw [compTerms_p, asr_eq_div, asr_eq_div]
  simp

/-- With C[6] = 0 no branch is taken, and C[4] × dT alone makes OFF negative. -/
theorem compTerms_p_pos_of_d1_zero : 0 < (compTerms #v[0, 0, 0, 0, 65535, 65535, 0] 0 0).p := by decide +kernel

theorem compTerms_temp_of_temp1_eq {C : CoefTable} {d1 d2 : Count} (h : (compTerms C d1 d2).temp1 = 2000) :
    (compTerms C d1 d2).temp = 2000 := by
  obtain ⟨ht2, -, -⟩ := compTerms_of_ge h.ge
  rw [compTerms_temp, h, ht2]
  rfl

/-- R135's example. -/
theorem compensate_example :
    compensate #v[0xA0C5, 45000, 42000, 28000, 26000, 32000, 28000] 6500000 8192000 = (2000, 110949) := by
  decide +kernel

/-! ### The statements -/

/-- Settles O20: both gates, the corner cases, the exact read-back by R131's bounds, and the example. -/
theorem ptConvertComputesBothResults : Obligations.PtConvertComputesBothResults := by
  refine ⟨by decide, fun s => exec_ptConvert_of_valid, fun s => exec_ptConvert_of_invalid, compTerms_p_of_d1_zero,
    ⟨_, _, compTerms_p_pos_of_d1_zero⟩, fun C d1 d2 => compTerms_temp_of_temp1_eq, ?readBack, ?vector⟩
  case readBack =>
    intro s hv
    obtain ⟨htemp, hpres⟩ := toInt_ofInt_compensate s.block.coef s.block.d1 s.block.d2
    refine ⟨_, exec_ptConvert_of_valid hv, ?_, ?_, fun hp => ?_⟩
    · exact (congrArg BitVec.toInt (readValue_index _ .tempI)).trans htemp
    · exact (congrArg BitVec.toInt (readValue_index _ .presI)).trans hpres
    · simp only [hp, f32_zero]
  case vector =>
    intro s hv hC h1 h2
    refine ⟨_, exec_ptConvert_of_valid hv, ?_⟩
    simp only [hC, h1, h2, compensate_example]
    decide +kernel

/-- Settles O16: the three corrections band by band, with the shifts as floor quotients. -/
theorem compensatePolynomial : Obligations.CompensatePolynomial := by
  intro C d1 d2 dT temp1 off1 sens1 t2 off2 sens2
  have hcorr : (t2, off2, sens2) = corrections dT temp1 := (corrections_eq_ite dT temp1).symm
  have hterms : corrections dT temp1 =
      ((compTerms C d1 d2).t2, (compTerms C d1 d2).off2, (compTerms C d1 d2).sens2) := compTerms_corrections C d1 d2
  obtain ⟨ht2, hoff2, hsens2⟩ : t2 = _ ∧ off2 = _ ∧ sens2 = _ := by
    simpa only [Prod.mk.injEq] using hcorr.trans hterms
  rw [compensate_eq, compTerms_temp, compTerms_p, compTerms_off, compTerms_sens, asr_eq_fdiv, asr_eq_fdiv, ht2, hoff2,
    hsens2]
  rfl

/-- Settles O17: the corrections of each band of the first-order TEMP. -/
theorem branchBoundaries : Obligations.BranchBoundaries := by
  intro C d1 d2
  refine ⟨compTerms_of_ge, ?first, ?both, compTerms_temp C d1 d2, compTerms_off C d1 d2, compTerms_sens C d1 d2⟩
  case first =>
    intro hl hu
    rw [← asr_eq_div]
    exact compTerms_of_first hl (by omega)
  case both =>
    intro h
    rw [← asr_eq_div]
    exact compTerms_of_both (by omega)

end Sys2Proof.Machine
end

section
/-!
PROOFS. The altitude (43_altitude.md): the three gates of ALT_COMPUTE, and that PT_CONVERT leaves ALT_F and ALT_VALID.
-/

namespace Sys2Proof.Machine

/-! ### ALT_COMPUTE (R153) -/

theorem exec_altCompute_of_open {s : State} (hp : s.block.ptValid = true)
    (hb : admissible s.block.baseline = true) :
    exec .altCompute s = .next { s with block := { s.block with
      altF := altFn s.block.presF s.block.baseline, altValid := true, err := 0 } } := by
  obtain ⟨hp', -⟩ | ⟨-, hb', -⟩ | ⟨-, -, h⟩ := altCompute_cases s.block
  · simp [hp] at hp'
  · simp [hb] at hb'
  · exact (exec_command_eq rfl s).trans (by rw [blockAfter, h]; rfl)

theorem exec_altCompute_of_noPressure {s : State} (hp : s.block.ptValid = false) :
    exec .altCompute s = .next { s with block := { s.block with altValid := false, err := 5 } } := by
  obtain ⟨-, h⟩ | ⟨hp', -⟩ | ⟨hp', -⟩ := altCompute_cases s.block
  · exact (exec_command_eq rfl s).trans (by rw [blockAfter, h]; rfl)
  · simp [hp] at hp'
  · simp [hp] at hp'

theorem exec_altCompute_of_baselineInvalid {s : State} (hp : s.block.ptValid = true)
    (hb : admissible s.block.baseline = false) :
    exec .altCompute s = .next { s with block := { s.block with altValid := false, err := 4 } } := by
  obtain ⟨hp', -⟩ | ⟨-, -, h⟩ | ⟨-, hb', -⟩ := altCompute_cases s.block
  · simp [hp] at hp'
  · exact (exec_command_eq rfl s).trans (by rw [blockAfter, h]; rfl)
  · simp [hb] at hb'

/-! ### The altitude under PT_CONVERT, and the baseline of the example -/

/-- PT_CONVERT does not refresh the altitude, on either side of its gate. -/
theorem ptConvert_keepsAltitude (b : Block) :
    (ptConvert b).altF = b.altF ∧ (ptConvert b).altValid = b.altValid := by
  obtain ⟨-, h⟩ | ⟨-, h⟩ := ptConvert_cases b <;> rw [h] <;> exact ⟨rfl, rfl⟩

/-- The pressure of R153's example is finite and not 0, so AF1 gives its altitude against itself. -/
theorem altFn_example : altFn 0x448AAFAE 0x448AAFAE = 0 := altFn_self _ (by decide) (by decide)

/-! ### The statement -/

/-- Settles O26: the three gates of ALT_COMPUTE, the frame of PT_CONVERT, and the example by AF1. -/
theorem altComputeGatesThenEvaluates : Obligations.AltComputeGatesThenEvaluates := by
  refine ⟨by decide, fun s => exec_altCompute_of_open, fun s => exec_altCompute_of_noPressure,
    fun s => exec_altCompute_of_baselineInvalid, ?ptConvert, ?vector⟩
  case ptConvert =>
    intro s
    exact ⟨_, exec_command_eq rfl s, ptConvert_keepsAltitude s.block⟩
  case vector =>
    intro s hp hpres hbase
    have hadm : admissible s.block.baseline = true := by rw [hbase]; decide
    refine ⟨_, exec_altCompute_of_open hp hadm, ?_, rfl, rfl⟩
    simpa only [hpres, hbase] using altFn_example

end Sys2Proof.Machine
end

section
/-!
PROOFS. The humidity and temperature decoder (44_humidity.md): the CRC-8 loop, the raw values, the exact numerators with
the clamp of the humidity, and HT_DECODE on a frame that passes and on one that fails.
-/

namespace Sys2Proof.Machine

/-! ### The loop of the CRC-8 (R160) -/

/-- One of the eight steps R160 makes on a byte. -/
def crc8LoopBit (rem : BitVec 8) : BitVec 8 := if rem.getLsbD 7 then (rem <<< 1) ^^^ 0x31 else rem <<< 1

theorem crcBit_eq_crc8LoopBit : crcBit (0x31 : Byte) = crc8LoopBit := by
  funext rem
  rw [crcBit, BitVec.msb_eq_getLsbD_last]
  rfl

theorem crc8_append_byte_eq_loop (s : List Byte) (x : Byte) :
    crc8 (s ++ [x]) = crc8LoopBit (crc8LoopBit (crc8LoopBit (crc8LoopBit (crc8LoopBit (crc8LoopBit (crc8LoopBit
      (crc8LoopBit (crc8 s ^^^ x)))))))) := by
  rw [crc8_append_byte, crcByte, crcShift8, crcBit_eq_crc8LoopBit, BitVec.setWidth_eq]
  rfl

/-! ### The raw values (R165) -/

theorem bigEndian16_lt (hi lo : Byte) : bigEndian16 hi lo < 2 ^ 16 := by
  have hhi := hi.isLt
  have hlo := lo.isLt
  rw [bigEndian16]
  omega

/-! ### The decoded values (R166, R167) -/

theorem quotient_mono (d : Nat) : Monotone fun n => quotient n d := fun _ _ h =>
  div_le_div_of_nonneg_right (Int.cast_le.2 h) (Nat.cast_nonneg d)

theorem quotient_htTempNumerator (raw : Nat) :
    quotient (htTempNumerator raw) 65535 = -45 + 175 * (raw : ℚ) / 65535 := by
  rw [quotient, htTempNumerator]
  push_cast
  ring

/-- The humidity before it is clamped (R167). -/
theorem quotient_unclampedHumidity (raw : Nat) :
    quotient (125 * raw - 393210) 65535 = -6 + 125 * (raw : ℚ) / 65535 := by
  rw [quotient]
  push_cast
  ring

/-- Clamping the numerator clamps the humidity, since dividing by 65535 keeps the order. -/
theorem quotient_htHumNumerator (raw : Nat) :
    quotient (htHumNumerator raw) 65535 = min 100 (max 0 (-6 + 125 * (raw : ℚ) / 65535)) := by
  have low : quotient 0 65535 = 0 := by norm_num [quotient]
  have high : quotient 6553500 65535 = 100 := by norm_num [quotient]
  calc quotient (htHumNumerator raw) 65535
      = min (quotient 6553500 65535) (quotient (max 0 (125 * raw - 393210)) 65535) :=
        (quotient_mono 65535).map_min
    _ = min (quotient 6553500 65535) (max (quotient 0 65535) (quotient (125 * raw - 393210) 65535)) :=
        congrArg _ (quotient_mono 65535).map_max
    _ = min 100 (max 0 (-6 + 125 * (raw : ℚ) / 65535)) := by rw [high, low, quotient_unclampedHumidity]

/-! ### HT_DECODE (R162, R175) -/

/-- Both halves of a frame pass (R162). -/
def FramePasses (f : Frame) : Prop := crc8Temp f = f[2] ∧ crc8Hum f = f[5]

theorem htDecode_of_pass {b : Block} (h : FramePasses b.frame) : htDecode b =
    { b with
      crc8T := crc8Temp b.frame, crc8H := crc8Hum b.frame, tCrcOk := true, hCrcOk := true
      htTempN := BitVec.ofInt 32 (htTempNumerator (rawTemp b.frame))
      htHumN := BitVec.ofInt 32 (htHumNumerator (rawHum b.frame))
      htTempF := f32 (htTempNumerator (rawTemp b.frame)) 65535
      htHumF := f32 (htHumNumerator (rawHum b.frame)) 65535
      htValid := true, err := 0 } := by
  obtain ⟨-, hb⟩ | ⟨hn, -⟩ := htDecode_cases b
  · exact hb
  · exact absurd h hn

theorem htDecode_of_fail {b : Block} (h : ¬FramePasses b.frame) : htDecode b =
    { b with
      crc8T := crc8Temp b.frame, crc8H := crc8Hum b.frame
      tCrcOk := crc8Temp b.frame == b.frame[2], hCrcOk := crc8Hum b.frame == b.frame[5]
      htValid := false, err := 3 } := by
  obtain ⟨hp, -⟩ | ⟨-, hb⟩ := htDecode_cases b
  · exact absurd hp h
  · exact hb

theorem exec_htDecode_eq (s : State) : exec .htDecode s = .next { s with block := htDecode s.block } := rfl

/-- What HT_DECODE reports is the frame's alone, and so are its results where it writes them (R176). -/
theorem htDecode_congr_frame {b₁ b₂ : Block} (h : b₁.frame = b₂.frame) :
    (htDecode b₁).crc8T = (htDecode b₂).crc8T ∧ (htDecode b₁).crc8H = (htDecode b₂).crc8H ∧
    (htDecode b₁).tCrcOk = (htDecode b₂).tCrcOk ∧ (htDecode b₁).hCrcOk = (htDecode b₂).hCrcOk ∧
    (htDecode b₁).htValid = (htDecode b₂).htValid ∧ (htDecode b₁).err = (htDecode b₂).err ∧
    ((htDecode b₁).htValid = true →
      (htDecode b₁).htTempN = (htDecode b₂).htTempN ∧ (htDecode b₁).htHumN = (htDecode b₂).htHumN ∧
      (htDecode b₁).htTempF = (htDecode b₂).htTempF ∧ (htDecode b₁).htHumF = (htDecode b₂).htHumF) := by
  by_cases hp : FramePasses b₂.frame
  · have hp₁ : FramePasses b₁.frame := h ▸ hp
    simp [htDecode_of_pass hp, htDecode_of_pass hp₁, h]
  · have hp₁ : ¬FramePasses b₁.frame := h ▸ hp
    simp [htDecode_of_fail hp, htDecode_of_fail hp₁, h]

theorem htDecode_compensatorShare (b : Block) : compensatorShare (htDecode b) = compensatorShare b := by
  obtain ⟨-, h⟩ | ⟨-, h⟩ := htDecode_cases b <;> rw [h] <;> rfl

/-- Corner case of R175: the CRC-8 of two zero bytes is 0x81. -/
theorem not_framePasses_zero : ¬FramePasses #v[0, 0, 0, 0, 0, 0] := by
  have hT : crc8Temp #v[0, 0, 0, 0, 0, 0] ≠ 0 := by decide +kernel
  rintro ⟨hpass, -⟩
  exact hT hpass

/-- The frame of R175's example. -/
def exampleFrame : Frame := #v[0x66, 0x66, 0x93, 0x66, 0x66, 0x93]

theorem framePasses_exampleFrame : FramePasses exampleFrame := by
  have hT : crc8Temp exampleFrame = 0x93 := by decide +kernel
  exact ⟨hT, hT⟩

theorem exampleFrame_numerators :
    htTempNumerator (rawTemp exampleFrame) = 1638375 ∧ htHumNumerator (rawHum exampleFrame) = 2883540 := by decide

/-- 25.0 and 44.0 (R175's example). -/
theorem exampleFrame_floats : f32 1638375 65535 = 0x41C80000 ∧ f32 2883540 65535 = 0x42300000 := by decide +kernel

/-! ### The statements -/

/-- Settles O29: both numerators as quotients, and the clamp carried through the division. -/
theorem decodedValuesAreExact : Obligations.DecodedValuesAreExact := fun raw _ =>
  ⟨rfl, quotient_htTempNumerator raw, rfl, quotient_htHumNumerator raw⟩

/-- Settles O27: the empty sequence and the step of one more byte. -/
theorem crc8IsTheLoopOfTheRule : Obligations.Crc8IsTheLoopOfTheRule := ⟨crc8_nil, crc8_append_byte_eq_loop⟩

/-- Settles O28: two bytes side by side stay below 2^16. -/
theorem rawValuesAreBigEndian : Obligations.RawValuesAreBigEndian := fun f =>
  ⟨rfl, rfl, bigEndian16_lt f[0] f[1], bigEndian16_lt f[3] f[4]⟩

/-- Settles O32: HT_DECODE on a frame that passes and on one that fails, and the two frames R175 names. -/
theorem htDecodeChecksThenScales : Obligations.HtDecodeChecksThenScales := by
  refine ⟨by decide, ?pass, ?fail, ?zeroFrame, ?vector⟩
  case pass =>
    intro s hT hH
    rw [exec_htDecode_eq, htDecode_of_pass ⟨hT, hH⟩]
    rfl
  case fail =>
    intro s h
    rw [exec_htDecode_eq, htDecode_of_fail h]
    rfl
  case zeroFrame =>
    intro s hf
    have hn : ¬FramePasses s.block.frame := hf ▸ not_framePasses_zero
    refine ⟨_, exec_htDecode_eq s, ?_⟩
    rw [htDecode_of_fail hn]
    exact ⟨rfl, rfl⟩
  case vector =>
    intro s hf
    have hex : s.block.frame = exampleFrame := hf
    have hp : FramePasses s.block.frame := hex ▸ framePasses_exampleFrame
    obtain ⟨hT, hH⟩ := exampleFrame_numerators
    obtain ⟨hTF, hHF⟩ := exampleFrame_floats
    refine ⟨_, exec_htDecode_eq s, ?_⟩
    rw [htDecode_of_pass hp]
    simp only [hex, hT, hH, hTF, hHF]
    decide

/-- Settles O34: the reports and results are functions of the frame, and the compensator's share is not written. -/
theorem htDecodeDependsOnTheFrameAlone : Obligations.HtDecodeDependsOnTheFrameAlone :=
  ⟨fun s₁ s₂ h => ⟨_, _, exec_htDecode_eq s₁, exec_htDecode_eq s₂, htDecode_congr_frame h⟩,
    fun s => ⟨_, exec_htDecode_eq s, htDecode_compensatorShare s.block⟩⟩

end Sys2Proof.Machine
end

section
/-!
PROOFS. Errors (60_exceptions.md): the outcome code of each command as its cause decides, what HT_DECODE records of both
halves before it ends, and the words that select no command.
-/

namespace Sys2Proof.Machine

/-! ### The outcome code of each command (R200) -/

theorem calValidate_err (b : Block) :
    (calValidate b).err = if crc4 b.coef = storedChecksum b.coef then 0 else 1 := by
  split
  next h => rw [calValidate_of_match h]
  next h => rw [calValidate_of_mismatch h]

theorem ptConvert_err (b : Block) : (ptConvert b).err = if b.calValid then 0 else 2 := by
  obtain ⟨hv, h⟩ | ⟨hv, h⟩ := ptConvert_cases b
  · rw [h, hv]; rfl
  · rw [h, hv]; rfl

theorem htDecode_err_of_pass {b : Block} (h : FramePasses b.frame) : (htDecode b).err = 0 := by
  rw [htDecode_of_pass h]

theorem htDecode_err_of_fail {b : Block} (h : ¬FramePasses b.frame) : (htDecode b).err = 3 := by
  rw [htDecode_of_fail h]

theorem htDecode_err (b : Block) : (htDecode b).err =
    if crc8Temp b.frame = b.frame[2] ∧ crc8Hum b.frame = b.frame[5] then 0 else 3 := by
  split
  next h => exact htDecode_err_of_pass h
  next h => exact htDecode_err_of_fail h

/-- The order of the conditions is R205's: PT_VALID before BASELINE. -/
theorem altCompute_err (b : Block) :
    (altCompute b).err = if b.ptValid = false then 5 else if admissible b.baseline then 0 else 4 := by
  obtain ⟨hp, h⟩ | ⟨hp, hb, h⟩ | ⟨hp, hb, h⟩ := altCompute_cases b
  · rw [h, hp]; rfl
  · rw [h, hp, hb]; rfl
  · rw [h, hp, hb]; rfl

theorem illegalCmd_err (b : Block) : (illegalCmd b).err = 6 := rfl

/-- Codes 7 to 15 are reserved: no command produces them. -/
theorem command_err_le {i : Instr} (hi : isCommand i = true) (b : Block) : (blockAfter i b).err.toNat ≤ 6 := by
  cases i with
  | regRead a d => cases hi
  | regWrite a d => cases hi
  | calValidate => rw [blockAfter, calValidate_err]; split <;> decide
  | ptConvert => rw [blockAfter, ptConvert_err]; split <;> decide
  | htDecode => rw [blockAfter, htDecode_err]; split <;> decide
  | altCompute => rw [blockAfter, altCompute_err]; split_ifs <;> decide
  | illegalCmd d => rw [blockAfter, illegalCmd_err]; decide

/-! ### Before a command ends (R205) -/

/-- HT_DECODE records both checksums and both pass bits, whichever halves fail. -/
theorem htDecode_records (b : Block) :
    (htDecode b).crc8T = crc8Temp b.frame ∧ (htDecode b).crc8H = crc8Hum b.frame ∧
      (htDecode b).tCrcOk = (crc8Temp b.frame == b.frame[2]) ∧
      (htDecode b).hCrcOk = (crc8Hum b.frame == b.frame[5]) := by
  by_cases hp : FramePasses b.frame
  · rw [htDecode_of_pass hp]
    obtain ⟨hT, hH⟩ := hp
    exact ⟨rfl, rfl, (beq_iff_eq.2 hT).symm, (beq_iff_eq.2 hH).symm⟩
  · rw [htDecode_of_fail hp]
    exact ⟨rfl, rfl, rfl, rfl⟩

theorem exec_decodeCommand_of_not_selects {d : Word} (h : selectsCommand d = false) (s : State) :
    exec (decodeCommand d) s = .next { s with block := { s.block with err := 6 } } := by
  have hd : ¬(d = 1 ∨ d = 2 ∨ d = 3 ∨ d = 4) := by simpa [selectsCommand, and_assoc] using h
  rw [decodeCommand_of_not_selects hd, exec_illegalCmd_eq]

/-! ### The statements -/

/-- Settles O36: the code of each command, and the bound over all of them. -/
theorem outcomeCodeOfEveryCommand : Obligations.OutcomeCodeOfEveryCommand := fun s =>
  ⟨⟨_, exec_command_eq rfl s, calValidate_err s.block⟩,
    ⟨_, exec_command_eq rfl s, ptConvert_err s.block⟩,
    ⟨_, exec_command_eq rfl s, htDecode_err s.block⟩,
    ⟨_, exec_command_eq rfl s, altCompute_err s.block⟩,
    fun _ => ⟨_, exec_command_eq rfl s, illegalCmd_err s.block⟩,
    fun _ hi => ⟨_, exec_command_eq hi s, command_err_le hi s.block⟩⟩

/-- Settles O37: R205 item by item, then the write that a locked table refuses. -/
theorem errorPriorityInsideACommand : Obligations.ErrorPriorityInsideACommand := by
  intro s
  refine ⟨?illegalWord, ?noPressure, ?baselineInvalid, ?bothHalves, ?calValidate, ?ptConvert, ?lockedWrite⟩
  case illegalWord => exact fun d hd => ⟨_, exec_decodeCommand_of_not_selects hd s, rfl⟩
  case noPressure => exact fun hp => ⟨_, exec_altCompute_of_noPressure hp, rfl⟩
  case baselineInvalid => exact fun hp hb => ⟨_, exec_altCompute_of_baselineInvalid hp hb, rfl⟩
  case bothHalves =>
    obtain ⟨hT, hH, hTOk, hHOk⟩ := htDecode_records s.block
    refine ⟨_, exec_htDecode_eq s, hT, hH, hTOk, hHOk, fun hbad => ?_, fun hokT hokH => ?_⟩
    · exact htDecode_err_of_fail (not_and_or.2 hbad)
    · exact htDecode_err_of_pass ⟨hokT, hokH⟩
  case calValidate => exact ⟨_, exec_command_eq rfl s, calValidate_err s.block⟩
  case ptConvert => exact ⟨_, exec_command_eq rfl s, ptConvert_err s.block⟩
  case lockedWrite =>
    exact fun i d hv => ⟨_, exec_regWrite_index_eq (.coef i) d s, coefWrite_of_locked hv i d⟩

end Sys2Proof.Machine
end

section
/-!
PROOFS. Encoding and decoding as inverses (30_encoding.md), the sample words, and the pseudo-instructions.
-/

namespace Sys2Proof

/-! ### A record is its three fields (R71) -/

theorem mkRecord_fields (r : Record) : mkRecord (opField r) (aField r) (dField r) = r := by
  rw [mkRecord, opField, aField, dField, BitVec.extractLsb'_append_extractLsb'_eq_extractLsb' (by decide),
    BitVec.extractLsb'_append_extractLsb'_eq_extractLsb' (by decide)]
  exact BitVec.extractLsb'_eq_self

/-! ### The records that decode (R76) -/

theorem decodeCommand_wf (d : Word) : (decodeCommand d).wf = true := by
  unfold decodeCommand
  split_ifs with h1 h2 h3 h4
  · rfl
  · rfl
  · rfl
  · rfl
  · simpa [Instr.wf, selectsCommand, and_assoc] using ⟨h1, h2, h3, h4⟩

/-- A record that decodes has OP = 00, or OP = 10 and then a command word where A is 0. -/
theorem decode_ok_cases {r : Record} {i : Instr} (h : decode r = .ok i) :
    (opField r = 0b00 ∧ i = .regRead (aField r) (dField r)) ∨
      (opField r = 0b10 ∧ aField r = 0 ∧ i = decodeCommand (dField r)) ∨
      (opField r = 0b10 ∧ aField r ≠ 0 ∧ i = .regWrite (aField r) (dField r)) := by
  unfold decode at h
  split_ifs at h with hread hwrite ha
  · exact .inl ⟨hread, by simpa using h.symm⟩
  · exact .inr (.inl ⟨hwrite, ha, by simpa using h.symm⟩)
  · exact .inr (.inr ⟨hwrite, ha, by simpa using h.symm⟩)

/-- An ILLEGAL_CMD that a record spells holds a word that selects no command (R75). -/
theorem decodeCommand_of_illegalCmd_wf {d : Word} (h : (Instr.illegalCmd d).wf = true) :
    decodeCommand d = .illegalCmd d :=
  Machine.decodeCommand_of_not_selects (by simpa [Instr.wf, selectsCommand, and_assoc] using h)

namespace Machine

/-! ### The statements -/

/-- Settles O42, row by row: a read, a write, the four command words, and a word that selects no command. -/
theorem decodeOfEncode : Obligations.DecodeOfEncode := by
  intro i hi
  cases i with
  | regRead a d => exact decode_mkRecord_read a d
  | regWrite a d => exact decode_mkRecord_write (by simpa [Instr.wf] using hi) d
  | calValidate => exact decode_mkRecord_command 1
  | ptConvert => exact decode_mkRecord_command 2
  | htDecode => exact decode_mkRecord_command 3
  | altCompute => exact decode_mkRecord_command 4
  | illegalCmd d => exact (decode_mkRecord_command d).trans (congrArg _ (decodeCommand_of_illegalCmd_wf hi))

/-- Settles O43: each way a record decodes leads back to its three fields. -/
theorem encodeOfDecode : Obligations.EncodeOfDecode := by
  intro r i h
  have fields := mkRecord_fields r
  obtain ⟨hop, rfl⟩ | ⟨hop, ha, rfl⟩ | ⟨hop, ha, rfl⟩ := decode_ok_cases h
  · rw [hop] at fields
    exact ⟨rfl, fields⟩
  · rw [hop, ha] at fields
    exact ⟨decodeCommand_wf _, (encode_decodeCommand _).trans fields⟩
  · rw [hop] at fields
    exact ⟨by simpa [Instr.wf] using ha, fields⟩

/-- Settles O45: the decoder's answer on seven records, each computed. -/
theorem sampleWordsDecode : Obligations.SampleWordsDecode :=
  ⟨by decide, by decide, by decide, by decide, by decide, by decide, by decide⟩

/-- Settles O47: each row of R80's table is the model's expansion of it. -/
theorem pseudoInstructionsExpand : Obligations.PseudoInstructionsExpand :=
  ⟨rfl, rfl, rfl, rfl, fun _ _ _ _ _ _ _ => rfl, fun _ _ => rfl, fun _ _ _ _ _ _ => rfl⟩

end Machine

end Sys2Proof
end

section
/-!
PROOFS. Steps and runs (20_memory.md, 70_reset_and_hazards.md): what each kind of event makes of a step, the block after a
step as a function of the pending events and the block, the induction over runs, and the runs that never stop.
-/

namespace Sys2Proof.Machine

/-! ### A step by what its event is delivered as -/

theorem step_of_transaction {s : State} {e : HostEvent} {rest : List HostEvent} {i : Instr}
    (hp : s.pending = e :: rest) (hd : deliver e = .transaction i) :
    step s = exec i { s with pending := rest, response := none } := by
  simp only [step, hp, hd, State.accept]

theorem step_of_stuck {s : State} {e : HostEvent} {rest : List HostEvent} {f : Fault}
    (hp : s.pending = e :: rest) (hd : deliver e = .stuck f) : step s = .fault f := by
  simp only [step, hp, hd]

theorem step_of_refuse {s : State} {e : HostEvent} {rest : List HostEvent} {r : Refusal}
    (hp : s.pending = e :: rest) (hd : deliver e = .refuse r) : step s = .refused r := by
  simp only [step, hp, hd]

theorem step_of_reset {s : State} {rest : List HostEvent} (hp : s.pending = .reset :: rest) :
    step s = .next { block := State.reset.block, pending := rest, response := none } := by
  simp only [step, hp, deliver]
  rfl

theorem step_of_idle {s : State} (hp : s.pending = []) : step s = .next s := by
  simp only [step, hp]

/-! ### What an event is delivered as (R51, R54, R57) -/

theorem deliver_record {r : Record} {i : Instr} (h : decode r = .ok i) : deliver (.record r) = .transaction i := by
  simp only [deliver, deliverRecord, h]

theorem deliver_memRead_eq (a : RegIndex) : deliver (memRead a) = .transaction (.regRead a 0) :=
  (deliver_memRead a).trans (deliver_record (decode_mkRecord_read a 0))

theorem deliver_memWrite_cmd (d : Word) : deliver (memWrite 0 d) = .transaction (decodeCommand d) :=
  (deliver_memWrite 0 d).trans (deliver_record (decode_mkRecord_command d))

theorem deliver_memWrite_of_ne {a : RegIndex} (ha : a ≠ 0) (d : Word) :
    deliver (memWrite a d) = .transaction (.regWrite a d) :=
  (deliver_memWrite a d).trans (deliver_record (decode_mkRecord_write ha d))

theorem inWindow_iff (addr : Nat) :
    inWindow addr = true ↔ Config.blockBase ≤ addr ∧ addr < Config.blockBase + 256 := by
  have hbytes : Config.windowBytes = 256 := rfl
  rw [inWindow, Bool.and_eq_true, decide_eq_true_iff, decide_eq_true_iff, hbytes]

theorem admitted_iff (addr size : Nat) : admitted addr size = true ↔ addr % 4 = 0 ∧ size = 4 := by
  simp [admitted]

theorem deliver_busRead (addr size : Nat) :
    deliver (.busRead addr size) = deliverAccess addr size (fun a => mkRecord 0b00 a 0) := rfl

theorem deliver_busWrite (addr size : Nat) (d : Word) :
    deliver (.busWrite addr size d) = deliverAccess addr size (fun a => mkRecord 0b10 a d) := rfl

theorem deliverAccess_outside {addr : Nat} (h : addr < Config.blockBase ∨ Config.blockBase + 256 ≤ addr) (size : Nat)
    (r : RegIndex → Record) : deliverAccess addr size r = .refuse (.outsideWindow addr) := by
  have hw : ¬inWindow addr = true := by rw [inWindow_iff]; omega
  rw [deliverAccess, if_pos (by simpa using hw)]

theorem deliverAccess_inadmissible {addr size : Nat} (hl : Config.blockBase ≤ addr)
    (hu : addr < Config.blockBase + 256) (h : addr % 4 ≠ 0 ∨ size ≠ 4) (r : RegIndex → Record) :
    deliverAccess addr size r = .stuck (.inadmissibleAccess addr size) := by
  have hw : inWindow addr = true := (inWindow_iff addr).2 ⟨hl, hu⟩
  have ha : ¬admitted addr size = true := by rw [admitted_iff]; omega
  rw [deliverAccess, if_neg (by simp [hw]), if_pos (by simpa using ha)]

/-! ### The block and the pending events after a step -/

/-- The block after a step that answers a next state, from the events pending before it. -/
def blockStep (pending : List HostEvent) (b : Block) : Block :=
  match pending with
  | [] => b
  | e :: _ =>
    match deliver e with
    | .transaction i => blockAfter i b
    | .reset => Block.reset
    | _ => b

theorem blockStep_of_transaction {e : HostEvent} {i : Instr} (h : deliver e = .transaction i) (rest : List HostEvent)
    (b : Block) : blockStep (e :: rest) b = blockAfter i b := by
  simp only [blockStep, h]

theorem blockStep_of_reset {e : HostEvent} (h : deliver e = .reset) (rest : List HostEvent) (b : Block) :
    blockStep (e :: rest) b = Block.reset := by
  simp only [blockStep, h]

theorem exec_inv {i : Instr} {s t : State} (h : exec i s = .next t) :
    t.block = blockAfter i s.block ∧ t.pending = s.pending := by
  obtain ⟨u, hu, hb, hp⟩ := exec_next i s
  obtain rfl : u = t := by simpa [hu] using h
  exact ⟨hb, hp⟩

/-- A step takes one event off the list, and what it makes of the block depends on that event and the block alone. -/
theorem step_block_pending {s t : State} (h : step s = .next t) :
    t.block = blockStep s.pending s.block ∧ t.pending = s.pending.tail := by
  obtain ⟨hp, rfl⟩ | ⟨e, rest, i, hp, hd, hx⟩ | ⟨e, rest, hp, hd, rfl⟩ := step_cases h
  · rw [hp]
    exact ⟨rfl, rfl⟩
  · rw [hp, blockStep_of_transaction hd]
    exact exec_inv hx
  · rw [hp, blockStep_of_reset hd]
    exact ⟨rfl, rfl⟩

/-- What a step can make of the block: nothing, the effect of an instruction, or a reset. -/
theorem blockStep_cases (pending : List HostEvent) :
    (∀ b, blockStep pending b = b) ∨ (∃ i, ∀ b, blockStep pending b = blockAfter i b) ∨
      (∃ rest, pending = .reset :: rest ∧ ∀ b, blockStep pending b = Block.reset) := by
  cases pending with
  | nil => exact .inl fun _ => rfl
  | cons e rest =>
    cases hd : deliver e with
    | transaction i => exact .inr (.inl ⟨i, blockStep_of_transaction hd rest⟩)
    | reset =>
      obtain rfl := deliver_reset hd
      exact .inr (.inr ⟨rest, rfl, blockStep_of_reset hd rest⟩)
    | stuck f => exact .inl fun b => by simp only [blockStep, hd]
    | refuse r => exact .inl fun b => by simp only [blockStep, hd]

/-- A property of the block that reset has and every instruction keeps, every step keeps. -/
theorem blockStep_preserves {P : Block → Prop} (hreset : P Block.reset) (hexec : ∀ i b, P b → P (blockAfter i b))
    (pending : List HostEvent) {b : Block} (h : P b) : P (blockStep pending b) := by
  obtain hid | ⟨i, hi⟩ | ⟨-, -, hr⟩ := blockStep_cases pending
  · rwa [hid]
  · rw [hi]; exact hexec i b h
  · rw [hr]; exact hreset

/-- The same for a relation between two blocks that meet the same events. -/
theorem blockStep_preserves₂ {R : Block → Block → Prop} (hreset : R Block.reset Block.reset)
    (hexec : ∀ i b₁ b₂, R b₁ b₂ → R (blockAfter i b₁) (blockAfter i b₂)) (pending : List HostEvent) {b₁ b₂ : Block}
    (h : R b₁ b₂) : R (blockStep pending b₁) (blockStep pending b₂) := by
  obtain hid | ⟨i, hi⟩ | ⟨-, -, hr⟩ := blockStep_cases pending
  · rwa [hid, hid]
  · rw [hi, hi]; exact hexec i b₁ b₂ h
  · rw [hr, hr]; exact hreset

/-! ### Runs -/

theorem run_zero_inv {s t : State} (h : Host.Core.run Sys2Proof.core 0 s = .next t) : t = s := by
  cases h
  rfl

theorem run_succ_of_next {s u : State} (h : step s = .next u) (n : Nat) :
    Host.Core.run Sys2Proof.core (n + 1) s = Host.Core.run Sys2Proof.core n u := by
  simp only [Host.Core.run, Sys2Proof.core, h]

theorem run_succ_inv {n : Nat} {s t : State} (h : Host.Core.run Sys2Proof.core (n + 1) s = .next t) :
    ∃ u, step s = .next u ∧ Host.Core.run Sys2Proof.core n u = .next t := by
  cases hs : step s with
  | next u => exact ⟨u, rfl, (run_succ_of_next hs n).symm.trans h⟩
  | fault f => simp only [Host.Core.run, Sys2Proof.core, hs] at h; cases h
  | refused r => simp only [Host.Core.run, Sys2Proof.core, hs] at h; cases h

/-- What every step keeps, every run keeps. -/
theorem run_preserves {P : State → Prop} (hstep : ∀ s t, P s → step s = .next t → P t) (n : Nat) :
    ∀ s t, P s → Host.Core.run Sys2Proof.core n s = .next t → P t := by
  induction n with
  | zero => intro s t hs h; rwa [run_zero_inv h]
  | succ n ih =>
    intro s t hs h
    obtain ⟨u, hu, hrun⟩ := run_succ_inv h
    exact ih u t (hstep s u hs hu) hrun

/-- What two steps keep of two states, two runs of one length keep. -/
theorem run_preserves₂ {R : State → State → Prop}
    (hstep : ∀ s₁ s₂ t₁ t₂, R s₁ s₂ → step s₁ = .next t₁ → step s₂ = .next t₂ → R t₁ t₂) (n : Nat) :
    ∀ s₁ s₂ t₁ t₂, R s₁ s₂ → Host.Core.run Sys2Proof.core n s₁ = .next t₁ →
      Host.Core.run Sys2Proof.core n s₂ = .next t₂ → R t₁ t₂ := by
  induction n with
  | zero => intro s₁ s₂ t₁ t₂ hs h₁ h₂; rwa [run_zero_inv h₁, run_zero_inv h₂]
  | succ n ih =>
    intro s₁ s₂ t₁ t₂ hs h₁ h₂
    obtain ⟨u₁, hu₁, hrun₁⟩ := run_succ_inv h₁
    obtain ⟨u₂, hu₂, hrun₂⟩ := run_succ_inv h₂
    exact ih u₁ u₂ t₁ t₂ (hstep s₁ s₂ u₁ u₂ hs hu₁ hu₂) hrun₁ hrun₂

/-- What never stops a step and is kept by every step never stops a run. -/
theorem run_next {P : State → Prop} (hstep : ∀ s, P s → ∃ t, step s = .next t ∧ P t) (n : Nat) :
    ∀ s, P s → ∃ t, Host.Core.run Sys2Proof.core n s = .next t := by
  induction n with
  | zero => intro s _; exact ⟨s, rfl⟩
  | succ n ih =>
    intro s hs
    obtain ⟨u, hu, hPu⟩ := hstep s hs
    obtain ⟨t, ht⟩ := ih u hPu
    exact ⟨t, (run_succ_of_next hu n).trans ht⟩

/-! ### Admitted events (R54, R77) -/

/-- A reset, the record of a well-formed instruction, or a word access to the window. -/
def HostEvent.IsAdmitted (e : HostEvent) : Prop :=
  e = .reset ∨ (∃ i : Instr, i.wf = true ∧ e = .record (encode i)) ∨
    (∃ a : RegIndex, e = .busRead (Config.blockBase + 4 * a.toNat) 4) ∨
    (∃ (a : RegIndex) (d : Word), e = .busWrite (Config.blockBase + 4 * a.toNat) 4 d)

/-- An admitted event is a reset or a transaction, so it has a step. -/
theorem deliver_of_isAdmitted {e : HostEvent} (h : e.IsAdmitted) :
    deliver e = .reset ∨ ∃ i, deliver e = .transaction i := by
  obtain rfl | ⟨i, hi, rfl⟩ | ⟨a, rfl⟩ | ⟨a, d, rfl⟩ := h
  · exact .inl rfl
  · exact .inr ⟨i, deliver_record (decodeOfEncode i hi)⟩
  · exact .inr ⟨_, deliver_memRead_eq a⟩
  · by_cases ha : a = 0
    · subst ha
      exact .inr ⟨_, deliver_memWrite_cmd d⟩
    · exact .inr ⟨_, deliver_memWrite_of_ne ha d⟩

theorem step_next_of_isAdmitted {s : State} (h : ∀ e ∈ s.pending, e.IsAdmitted) : ∃ t, step s = .next t := by
  cases hp : s.pending with
  | nil => exact ⟨s, step_of_idle hp⟩
  | cons e rest =>
    obtain hd | ⟨i, hd⟩ := deliver_of_isAdmitted (h e (by simp [hp]))
    · obtain rfl := deliver_reset hd
      exact ⟨_, step_of_reset hp⟩
    · obtain ⟨t, ht, -⟩ := exec_next i { s with pending := rest, response := none }
      exact ⟨t, (step_of_transaction hp hd).trans ht⟩

/-! ### The statements -/

/-- Settles O54: an admitted event always has a step, and a step only takes events off the list. -/
theorem admittedRunsNeverStop : Obligations.AdmittedRunsNeverStop := by
  refine run_next (P := fun s => ∀ e ∈ s.pending, e.IsAdmitted) fun s hs => ?_
  obtain ⟨t, ht⟩ := step_next_of_isAdmitted hs
  refine ⟨t, ht, fun e he => hs e ?_⟩
  rw [(step_block_pending ht).2] at he
  exact List.mem_of_mem_tail he

/-- Settles O49: the page bound, the two word accesses, and the access that R54 leaves stuck. -/
theorem busAccessesOfTheWindow : Obligations.BusAccessesOfTheWindow := by
  refine ⟨Nat.mul_mod_right 256 _, ?read, ?write, ?stuck⟩
  case read => exact fun s a rest hp => step_of_transaction hp (deliver_memRead_eq a)
  case write =>
    intro s a d rest hp
    by_cases ha : a = 0
    · subst ha
      exact (step_of_transaction hp (deliver_memWrite_cmd d)).trans (exec_decodeCommand d _)
    · exact step_of_transaction hp (deliver_memWrite_of_ne ha d)
  case stuck =>
    intro s addr size d rest hl hu h hp
    obtain hp | hp := hp
    · exact step_of_stuck hp ((deliver_busRead addr size).trans (deliverAccess_inadmissible hl hu h _))
    · exact step_of_stuck hp ((deliver_busWrite addr size d).trans (deliverAccess_inadmissible hl hu h _))

/-- Settles O48. -/
theorem stepRunsTheDecodedInstruction : Obligations.StepRunsTheDecodedInstruction :=
  fun _ _ _ _ hp hd => step_of_transaction hp (deliver_record hd)

/-- Settles O50: the window is looked at before size and alignment. -/
theorem accessesOutsideTheWindowAreRefused : Obligations.AccessesOutsideTheWindowAreRefused := by
  intro s addr size d rest h hp
  obtain hp | hp := hp
  · exact step_of_refuse hp ((deliver_busRead addr size).trans (deliverAccess_outside h size _))
  · exact step_of_refuse hp ((deliver_busWrite addr size d).trans (deliverAccess_outside h size _))

/-- Settles O52. -/
theorem resetEventTakesTheResetValues : Obligations.ResetEventTakesTheResetValues := fun _ _ hp => step_of_reset hp

/-- Settles O53. -/
theorem idleBlockKeepsItsState : Obligations.IdleBlockKeepsItsState := fun _ hp => step_of_idle hp

end Sys2Proof.Machine
end

section
/-!
PROOFS. What every step keeps: the invariant, the lock of a validated table over whole runs, WLOCK, and the independence of
the two converters' shares.
-/

namespace Sys2Proof.Machine

/-! ### The invariant after each command -/

theorem htTempNumerator_bounds {raw : Nat} (h : raw < 2 ^ 16) :
    -2949075 ≤ htTempNumerator raw ∧ htTempNumerator raw ≤ 8519550 := by
  rw [htTempNumerator]
  omega

theorem htHumNumerator_bounds (raw : Nat) : 0 ≤ htHumNumerator raw ∧ htHumNumerator raw ≤ 6553500 := by
  rw [htHumNumerator]
  omega

/-- N_T and N_H fit s32, so the registers hold them exactly (R168). -/
theorem toInt_ofInt_numerators {raw : Nat} (h : raw < 2 ^ 16) :
    (BitVec.ofInt 32 (htTempNumerator raw)).toInt = htTempNumerator raw ∧
      (BitVec.ofInt 32 (htHumNumerator raw)).toInt = htHumNumerator raw := by
  obtain ⟨hTl, hTu⟩ := htTempNumerator_bounds h
  obtain ⟨hHl, hHu⟩ := htHumNumerator_bounds raw
  constructor
  · exact BitVec.toInt_ofInt_eq_self (by norm_num) (by omega) (by omega)
  · exact BitVec.toInt_ofInt_eq_self (by norm_num) (by omega) (by omega)

section Kept

variable {b : Block} (hb : b.Inv)
include hb

/-- A mismatch cannot meet a locked table, so no flag that needs CAL_VALID is set when it is cleared. -/
theorem calValidate_inv : (calValidate b).Inv := by
  have herr : (calValidate b).err.toNat ≤ 6 := command_err_le (i := .calValidate) rfl b
  obtain ⟨hv, h⟩ | ⟨hv, h⟩ := calValidate_cases b <;> rw [h] at herr ⊢
  · exact { hb with
      err_produced := herr
      locked_valid := fun _ => hv
      crc_of_locked := fun _ => ⟨rfl, rfl⟩
      wlock_locked := fun _ => rfl
      pt_calibrated := fun _ => rfl }
  · have unlocked : ¬b.calValid = true := fun hl => by simp [hb.locked_valid hl] at hv
    exact { hb with
      err_produced := herr
      locked_valid := fun hl => by simp at hl
      crc_of_locked := fun hl => by simp at hl
      wlock_locked := fun hw => absurd (hb.wlock_locked hw) unlocked
      pt_calibrated := fun hp => absurd (hb.pt_calibrated hp) unlocked }

theorem ptConvert_inv : (ptConvert b).Inv := by
  have herr : (ptConvert b).err.toNat ≤ 6 := command_err_le (i := .ptConvert) rfl b
  obtain ⟨hv, h⟩ | ⟨hv, h⟩ := ptConvert_cases b <;> rw [h] at herr ⊢
  · obtain ⟨htemp, hpres⟩ := toInt_ofInt_compensate b.coef b.d1 b.d2
    exact { hb with
      err_produced := herr
      pt_calibrated := fun _ => hv
      alt_has_pressure := fun _ => rfl
      tempF_rounded := by rw [htemp]
      presF_rounded := by rw [hpres]
      temp_bounds := by rw [htemp]; exact compTerms_temp_bounds b.coef b.d1 b.d2
      pres_bound := by rw [hpres]; exact compTerms_p_natAbs_lt b.coef b.d1 b.d2 }
  · have noPressure : ¬b.ptValid = true := fun hp => by simp [hb.pt_calibrated hp] at hv
    exact { hb with
      err_produced := herr
      pt_calibrated := fun hp => by simp at hp
      alt_has_pressure := fun ha => absurd (hb.alt_has_pressure ha) noPressure }

theorem htDecode_inv : (htDecode b).Inv := by
  have herr : (htDecode b).err.toNat ≤ 6 := command_err_le (i := .htDecode) rfl b
  obtain ⟨-, h⟩ | ⟨hn, h⟩ := htDecode_cases b <;> rw [h] at herr ⊢
  · have hT : rawTemp b.frame < 2 ^ 16 := bigEndian16_lt _ _
    have hH : rawHum b.frame < 2 ^ 16 := bigEndian16_lt _ _
    obtain ⟨hnT, -⟩ := toInt_ofInt_numerators hT
    obtain ⟨-, hnH⟩ := toInt_ofInt_numerators hH
    exact { hb with
      err_produced := herr
      ht_both_halves := rfl
      htTempF_rounded := by rw [hnT]
      htHumF_rounded := by rw [hnH]
      htTemp_range := by rw [hnT]; exact htTempNumerator_bounds hT
      htHum_range := by rw [hnH]; exact htHumNumerator_bounds _ }
  · exact { hb with
      err_produced := herr
      ht_both_halves := by simpa using hn }

theorem altCompute_inv : (altCompute b).Inv := by
  have herr : (altCompute b).err.toNat ≤ 6 := command_err_le (i := .altCompute) rfl b
  obtain ⟨-, h⟩ | ⟨-, -, h⟩ | ⟨hp, -, h⟩ := altCompute_cases b <;> rw [h] at herr ⊢
  · exact { hb with err_produced := herr, alt_has_pressure := fun ha => by simp at ha }
  · exact { hb with err_produced := herr, alt_has_pressure := fun ha => by simp at ha }
  · exact { hb with err_produced := herr, alt_has_pressure := fun _ => hp }

theorem command_inv {i : Instr} (hi : isCommand i = true) : (blockAfter i b).Inv := by
  cases i with
  | regRead a d => cases hi
  | regWrite a d => cases hi
  | calValidate => exact calValidate_inv hb
  | ptConvert => exact ptConvert_inv hb
  | htDecode => exact htDecode_inv hb
  | altCompute => exact altCompute_inv hb
  | illegalCmd d => exact { hb with err_produced := command_err_le rfl b }

/-! ### The invariant after a write -/

/-- A write to a locked table sets WLOCK alone, and one to an unlocked table meets none of the parts that speak of it. -/
theorem coefWrite_inv (i : Fin 7) (d : Word) : (coefWrite b i d).Inv := by
  obtain ⟨hv, h⟩ | ⟨hv, h⟩ := coefWrite_cases b i d <;> rw [h]
  · exact { hb with wlock_locked := fun _ => hv }
  · have unlocked : ¬b.calValid = true := by simp [hv]
    exact { hb with
      locked_valid := fun hl => absurd hl unlocked
      crc_of_locked := fun hl => absurd hl unlocked }

theorem regWrite_inv (a : RegIndex) (d : Word) : (regWrite b a d).Inv := by
  obtain ⟨-, h⟩ | ⟨i, -, h⟩ | ⟨-, h⟩ | ⟨-, h⟩ | ⟨k, -, h⟩ | ⟨-, h⟩ | h := regWrite_cases b a d <;> rw [h]
  case inl =>
    rw [← blockAfter_decodeCommand]
    exact command_inv hb (isCommand_decodeCommand d)
  case inr.inl => exact coefWrite_inv hb i d
  all_goals exact { hb with }

theorem blockAfter_inv (i : Instr) : (blockAfter i b).Inv := by
  cases i with
  | regRead a d => exact hb
  | regWrite a d => exact regWrite_inv hb a d
  | _ => exact command_inv hb rfl

end Kept

theorem reset_inv : Block.reset.Inv where
  err_produced := by decide
  locked_valid := by decide
  crc_of_locked := by decide
  wlock_locked := by decide
  pt_calibrated := by decide
  alt_has_pressure := by decide
  ht_both_halves := rfl
  tempF_rounded := (f32_zero 100).symm
  presF_rounded := (f32_zero 100).symm
  htTempF_rounded := (f32_zero 65535).symm
  htHumF_rounded := (f32_zero 65535).symm
  temp_bounds := by decide
  pres_bound := by decide
  htTemp_range := by decide
  htHum_range := by decide

/-! ### WLOCK and the lock -/

theorem regWrite_keeps_wlock {b : Block} (h : b.wlock = true) (a : RegIndex) (d : Word) :
    (regWrite b a d).wlock = true := by
  obtain ⟨-, hw⟩ | ⟨i, -, hw⟩ | ⟨-, hw⟩ | ⟨-, hw⟩ | ⟨k, -, hw⟩ | ⟨-, hw⟩ | hw := regWrite_cases b a d <;> rw [hw]
  case inl =>
    rw [← blockAfter_decodeCommand, (command_keepsInputs (isCommand_decodeCommand d) b).wlock, h]
  case inr.inl => obtain ⟨-, hc⟩ | ⟨-, hc⟩ := coefWrite_cases b i d <;> simp [hc, h]
  all_goals exact h

/-- No instruction clears WLOCK (R27). -/
theorem blockAfter_keeps_wlock (i : Instr) {b : Block} (h : b.wlock = true) : (blockAfter i b).wlock = true := by
  cases i with
  | regRead a d => exact h
  | regWrite a d => exact regWrite_keeps_wlock h a d
  | _ => exact (command_keepsInputs rfl b).wlock.trans h

/-- The table is locked, valid and `C`, and no reset can unlock it. -/
def LockedOn (C : CoefTable) (s : State) : Prop :=
  s.block.calValid = true ∧ tableValid C = true ∧ s.block.coef = C ∧ noResetPending s

theorem step_keeps_lockedOn (C : CoefTable) (s t : State) (hs : LockedOn C s) (h : step s = .next t) :
    LockedOn C t := by
  obtain ⟨locked, valid, rfl, noReset⟩ := hs
  obtain ⟨hv, hc⟩ | ⟨rest, hp⟩ := step_keepsLock_or_reset locked valid h
  · refine ⟨hv, valid, hc, fun hr => noReset ?_⟩
    rw [(step_block_pending h).2] at hr
    exact List.mem_of_mem_tail hr
  · exact absurd (by simp [hp]) noReset

/-! ### The two converters' shares (R1, R59) -/

/-- The block whose shares are the given two, with the given outcome code, which is in neither. -/
def joinShares (p : CompensatorShare) (q : DecoderShare) (e : BitVec 4) : Block where
  coef := p.coef
  d1 := p.d1
  d2 := p.d2
  frame := q.frame
  baseline := p.baseline
  calValid := p.calValid
  ptValid := p.ptValid
  htValid := q.htValid
  altValid := p.altValid
  tCrcOk := q.tCrcOk
  hCrcOk := q.hCrcOk
  wlock := p.wlock
  err := e
  crc4Calc := p.crc4Calc
  crc4Stored := p.crc4Stored
  crc8T := q.crc8T
  crc8H := q.crc8H
  tempI := p.tempI
  presI := p.presI
  tempF := p.tempF
  presF := p.presF
  htTempN := q.htTempN
  htHumN := q.htHumN
  htTempF := q.htTempF
  htHumF := q.htHumF
  altF := p.altF

theorem joinShares_shares (b : Block) : joinShares (compensatorShare b) (decoderShare b) b.err = b := rfl

/-- What `f` makes of the compensator's share depends on that share alone, and so for the decoder's. -/
structure SeparatesShares (f : Block → Block) : Prop where
  compensator : ∀ p q e q' e', compensatorShare (f (joinShares p q e)) = compensatorShare (f (joinShares p q' e'))
  decoder : ∀ q p e p' e', decoderShare (f (joinShares p q e)) = decoderShare (f (joinShares p' q e'))

section Separates

variable {f : Block → Block}

theorem SeparatesShares.compensator_congr (hf : SeparatesShares f) {b₁ b₂ : Block}
    (h : compensatorShare b₁ = compensatorShare b₂) : compensatorShare (f b₁) = compensatorShare (f b₂) := by
  rw [← joinShares_shares b₁, ← joinShares_shares b₂, h]
  exact hf.compensator ..

theorem SeparatesShares.decoder_congr (hf : SeparatesShares f) {b₁ b₂ : Block}
    (h : decoderShare b₁ = decoderShare b₂) : decoderShare (f b₁) = decoderShare (f b₂) := by
  rw [← joinShares_shares b₁, ← joinShares_shares b₂, h]
  exact hf.decoder ..

/-- What leaves the decoder's share as it is needs to be looked at on the compensator's alone. -/
theorem separatesShares_of_keeps_decoder (hd : ∀ b, decoderShare (f b) = decoderShare b)
    (hc : ∀ p q e q' e', compensatorShare (f (joinShares p q e)) = compensatorShare (f (joinShares p q' e'))) :
    SeparatesShares f := ⟨hc, fun q p e p' e' => (hd (joinShares p q e)).trans (hd (joinShares p' q e')).symm⟩

theorem separatesShares_of_keeps_compensator (hc : ∀ b, compensatorShare (f b) = compensatorShare b)
    (hd : ∀ q p e p' e', decoderShare (f (joinShares p q e)) = decoderShare (f (joinShares p' q e'))) :
    SeparatesShares f := ⟨fun p q e q' e' => (hc (joinShares p q e)).trans (hc (joinShares p q' e')).symm, hd⟩

end Separates

theorem calValidate_decoderShare (b : Block) : decoderShare (calValidate b) = decoderShare b := by
  obtain ⟨-, h⟩ | ⟨-, h⟩ := calValidate_cases b <;> rw [h] <;> rfl

theorem ptConvert_decoderShare (b : Block) : decoderShare (ptConvert b) = decoderShare b := by
  obtain ⟨-, h⟩ | ⟨-, h⟩ := ptConvert_cases b <;> rw [h] <;> rfl

theorem altCompute_decoderShare (b : Block) : decoderShare (altCompute b) = decoderShare b := by
  obtain ⟨-, h⟩ | ⟨-, -, h⟩ | ⟨-, -, h⟩ := altCompute_cases b <;> rw [h] <;> rfl

theorem coefWrite_decoderShare (i : Fin 7) (d : Word) (b : Block) :
    decoderShare (coefWrite b i d) = decoderShare b := by
  obtain ⟨-, h⟩ | ⟨-, h⟩ := coefWrite_cases b i d <;> rw [h] <;> rfl

theorem calValidate_separates : SeparatesShares calValidate := by
  refine separatesShares_of_keeps_decoder calValidate_decoderShare fun p q e q' e' => ?_
  by_cases h : tableValid p.coef = true <;> simp only [calValidate, joinShares, h] <;> rfl

theorem ptConvert_separates : SeparatesShares ptConvert := by
  refine separatesShares_of_keeps_decoder ptConvert_decoderShare fun p q e q' e' => ?_
  by_cases h : p.calValid = true <;> simp only [ptConvert, joinShares, h] <;> rfl

theorem altCompute_separates : SeparatesShares altCompute := by
  refine separatesShares_of_keeps_decoder altCompute_decoderShare fun p q e q' e' => ?_
  by_cases h : p.ptValid = true <;> by_cases h' : admissible p.baseline = true <;>
    simp only [altCompute, joinShares, h, h'] <;> rfl

theorem htDecode_separates : SeparatesShares htDecode := by
  refine separatesShares_of_keeps_compensator htDecode_compensatorShare fun q p e p' e' => ?_
  by_cases h : FramePasses q.frame
  · rw [htDecode_of_pass (b := joinShares p q e) h, htDecode_of_pass (b := joinShares p' q e') h]
    rfl
  · rw [htDecode_of_fail (b := joinShares p q e) h, htDecode_of_fail (b := joinShares p' q e') h]
    rfl

theorem illegalCmd_separates : SeparatesShares illegalCmd := ⟨fun _ _ _ _ _ => rfl, fun _ _ _ _ _ => rfl⟩

theorem command_separates {i : Instr} (hi : isCommand i = true) : SeparatesShares (blockAfter i) := by
  cases i with
  | regRead a d => cases hi
  | regWrite a d => cases hi
  | calValidate => exact calValidate_separates
  | ptConvert => exact ptConvert_separates
  | htDecode => exact htDecode_separates
  | altCompute => exact altCompute_separates
  | illegalCmd d => exact illegalCmd_separates

theorem coefWrite_separates (i : Fin 7) (d : Word) : SeparatesShares fun b => coefWrite b i d := by
  refine separatesShares_of_keeps_decoder (coefWrite_decoderShare i d) fun p q e q' e' => ?_
  by_cases h : p.calValid = true <;> simp only [coefWrite, joinShares, h] <;> rfl

theorem writeReg_separates (r : RegName) (d : Word) : SeparatesShares fun b => writeReg b r d := by
  cases r with
  | cmd =>
    have hd : (fun b => writeReg b .cmd d) = blockAfter (decodeCommand d) :=
      funext fun b => (blockAfter_decodeCommand d b).symm
    rw [hd]
    exact command_separates (isCommand_decodeCommand d)
  | coef i => exact coefWrite_separates i d
  | _ => exact ⟨fun _ _ _ _ _ => rfl, fun _ _ _ _ _ => rfl⟩

theorem regWrite_separates (a : RegIndex) (d : Word) : SeparatesShares fun b => regWrite b a d := by
  cases ha : RegName.ofIndex a with
  | none =>
    have hid : (fun b => regWrite b a d) = id := funext fun b => by simp only [regWrite, ha, id]
    rw [hid]
    exact ⟨fun _ _ _ _ _ => rfl, fun _ _ _ _ _ => rfl⟩
  | some r =>
    have hw : (fun b => regWrite b a d) = fun b => writeReg b r d := funext fun b => by simp only [regWrite, ha]
    rw [hw]
    exact writeReg_separates r d

/-- Every instruction keeps the two converters apart. -/
theorem blockAfter_separates (i : Instr) : SeparatesShares (blockAfter i) := by
  cases i with
  | regRead a d => exact ⟨fun _ _ _ _ _ => rfl, fun _ _ _ _ _ => rfl⟩
  | regWrite a d => exact regWrite_separates a d
  | _ => exact command_separates rfl

/-- A relation between blocks that equal events keep, carried through two runs over the same events. -/
theorem run_preserves_block₂ {R : Block → Block → Prop} (hreset : R Block.reset Block.reset)
    (hexec : ∀ i b₁ b₂, R b₁ b₂ → R (blockAfter i b₁) (blockAfter i b₂)) {n : Nat} {s₁ s₂ t₁ t₂ : State}
    (hp : s₁.pending = s₂.pending) (h₁ : Host.Core.run Sys2Proof.core n s₁ = .next t₁)
    (h₂ : Host.Core.run Sys2Proof.core n s₂ = .next t₂) (h : R s₁.block s₂.block) : R t₁.block t₂.block := by
  refine (run_preserves₂ (R := fun s₁ s₂ => s₁.pending = s₂.pending ∧ R s₁.block s₂.block) ?_ n s₁ s₂ t₁ t₂
    ⟨hp, h⟩ h₁ h₂).2
  rintro u₁ u₂ v₁ v₂ ⟨hpu, hu⟩ hs₁ hs₂
  obtain ⟨hb₁, hp₁⟩ := step_block_pending hs₁
  obtain ⟨hb₂, hp₂⟩ := step_block_pending hs₂
  refine ⟨by rw [hp₁, hp₂, hpu], ?_⟩
  rw [hb₁, hb₂, hpu]
  exact blockStep_preserves₂ hreset hexec u₂.pending hu

/-! ### The statements -/

/-- Settles O56: reset and every instruction keep the invariant, so every step does. -/
theorem stepKeepsTheInvariant : Obligations.StepKeepsTheInvariant := by
  intro s t hs h
  rw [State.Inv, (step_block_pending h).1]
  exact blockStep_preserves reset_inv (fun i _ hb => blockAfter_inv hb i) s.pending hs

/-- Settles O13: the locked table as an invariant of the steps of a run without a reset. -/
theorem lockedTableSurvivesRuns : Obligations.LockedTableSurvivesRuns := by
  intro n s t hs locked noReset h
  have start : LockedOn s.block.coef s := ⟨locked, hs.locked_valid locked, rfl, noReset⟩
  obtain ⟨hv, -, hc, -⟩ := run_preserves (step_keeps_lockedOn s.block.coef) n s t start h
  exact ⟨hv, hc⟩

/-- Settles O57: equality of either share is a relation that every instruction keeps. -/
theorem convertersDoNotInterfere : Obligations.ConvertersDoNotInterfere := fun _ _ _ _ _ hp h₁ h₂ =>
  ⟨run_preserves_block₂ (R := fun b₁ b₂ => compensatorShare b₁ = compensatorShare b₂) rfl
      (fun i _ _ => (blockAfter_separates i).compensator_congr) hp h₁ h₂,
    run_preserves_block₂ (R := fun b₁ b₂ => decoderShare b₁ = decoderShare b₂) rfl
      (fun i _ _ => (blockAfter_separates i).decoder_congr) hp h₁ h₂⟩

/-- Settles O55. -/
theorem resetSatisfiesTheInvariant : Obligations.ResetSatisfiesTheInvariant := reset_inv

/-- Settles O41: idle steps and instructions keep WLOCK, which leaves the reset. -/
theorem onlyResetClearsWlock : Obligations.OnlyResetClearsWlock := by
  intro s t h hw hclear
  rw [(step_block_pending h).1] at hclear
  obtain hid | ⟨i, hi⟩ | ⟨rest, hp, -⟩ := blockStep_cases s.pending
  · simp [hid, hw] at hclear
  · simp [hi, blockAfter_keeps_wlock i hw] at hclear
  · exact ⟨rest, hp⟩

end Sys2Proof.Machine
end

section
/-!
PROOFS. The frame of each instruction on the register map (10_state.md, 40_register_access.md): what a write leaves to every
other index, which instruction writes each flag and register, and that writing twice is writing once.
-/

namespace Sys2Proof

theorem RegName.coef_index_iff (r : RegName) : (4 ≤ r.index ∧ r.index ≤ 10) ↔ ∃ i, r = .coef i := by
  cases r with
  | coef i => revert i; decide
  | frame k => revert k; decide
  | _ => simp [RegName.index]

theorem RegName.ofIndex_none_not_coef :
    ∀ a : RegIndex, RegName.ofIndex a = none → ¬(4 ≤ a ∧ a ≤ 10) := by decide

/-- The registers that take the host's inputs (R30, R33, R34, R36). -/
def RegName.IsInput (r : RegName) : Prop := r.access = .rw ∨ r.access = .rwLock

namespace Machine

/-! ### What a write leaves to the other indices (R92, R105) -/

theorem statusFlags_with_wlock (b : Block) : statusFlags { b with wlock := true } = statusFlags b ||| 0x40 := by
  have mask : (0x40 : BitVec 8) = 0#1 ++ 1#1 ++ 0#1 ++ 0#1 ++ 0#1 ++ 0#1 ++ 0#1 ++ 0#1 := by decide
  have bit : ∀ w : Bool, BitVec.ofBool w ||| 1#1 = BitVec.ofBool true := by decide
  calc statusFlags { b with wlock := true }
      = (0#1 ++ BitVec.ofBool b.wlock ++ BitVec.ofBool b.hCrcOk ++ BitVec.ofBool b.tCrcOk
          ++ BitVec.ofBool b.altValid ++ BitVec.ofBool b.htValid ++ BitVec.ofBool b.ptValid ++ BitVec.ofBool b.calValid)
          ||| (0#1 ++ 1#1 ++ 0#1 ++ 0#1 ++ 0#1 ++ 0#1 ++ 0#1 ++ 0#1) := by
        simp only [BitVec.or_append, BitVec.or_zero, bit]
        rfl
    _ = statusFlags b ||| 0x40 := by rw [mask]; rfl

/-- Setting WLOCK sets bit 6 of STATUS and no other (R27). -/
theorem statusWord_with_wlock (b : Block) : statusWord { b with wlock := true } = statusWord b ||| 0x40 := by
  have mask : (0x40 : Word) = 0#20 ++ 0#4 ++ 0x40#8 := by decide
  calc statusWord { b with wlock := true }
      = 0#20 ++ b.err ++ statusFlags { b with wlock := true } := statusWord_eq_append _
    _ = (0#20 ++ b.err ++ statusFlags b) ||| (0#20 ++ 0#4 ++ 0x40#8) := by
      rw [statusFlags_with_wlock]
      simp only [BitVec.or_append, BitVec.or_zero]
      rfl
    _ = statusWord b ||| 0x40 := by rw [statusWord_eq_append, mask]

theorem readReg_coefWrite_of_ne {r : RegName} {i : Fin 7} (h : r ≠ .coef i) (hs : r ≠ .status) (b : Block) (d : Word) :
    readReg (coefWrite b i d) r = readReg b r := by
  obtain ⟨-, hw⟩ | ⟨-, hw⟩ := coefWrite_cases b i d <;> rw [hw] <;> cases r with
  | status => exact absurd rfl hs
  | coef j =>
    have hij : i.val ≠ j.val := fun hv => h (by rw [Fin.ext hv])
    simp [readReg, Vector.getElem_set_ne, hij]
  | _ => rfl

theorem readReg_writeReg_frame_of_ne {r : RegName} {k : Fin 6} (h : r ≠ .frame k) (b : Block) (d : Word) :
    readReg (writeReg b (.frame k) d) r = readReg b r := by
  cases r with
  | frame j =>
    have hkj : k.val ≠ j.val := fun hv => h (by rw [Fin.ext hv])
    simp [writeReg, readReg, Vector.getElem_set_ne, hkj]
  | _ => rfl

theorem readReg_writeReg_of_ne {r r' : RegName} (hcmd : r ≠ .cmd) (h : r' ≠ r) (hs : r' ≠ .status) (b : Block)
    (d : Word) : readReg (writeReg b r d) r' = readReg b r' := by
  cases r with
  | cmd => exact absurd rfl hcmd
  | coef i => exact readReg_coefWrite_of_ne h hs b d
  | frame k => exact readReg_writeReg_frame_of_ne h b d
  | d1 => cases r' with
    | d1 => exact absurd rfl h
    | _ => rfl
  | d2 => cases r' with
    | d2 => exact absurd rfl h
    | _ => rfl
  | baseline => cases r' with
    | baseline => exact absurd rfl h
    | _ => rfl
  | _ => rfl

theorem statusWord_writeReg {r : RegName} (hcmd : r ≠ .cmd) (b : Block) (d : Word) :
    statusWord (writeReg b r d) =
      if b.calValid = true ∧ 4 ≤ r.index ∧ r.index ≤ 10 then statusWord b ||| 0x40 else statusWord b := by
  simp only [RegName.coef_index_iff]
  cases r with
  | cmd => exact absurd rfl hcmd
  | coef i =>
    obtain ⟨hv, hw⟩ | ⟨hv, hw⟩ := coefWrite_cases b i d
    · rw [writeReg, hw, if_pos ⟨hv, i, rfl⟩, statusWord_with_wlock]
    · rw [writeReg, hw, if_neg (by simp [hv])]
      rfl
  | _ => rw [if_neg (by simp)]; rfl

theorem regWrite_of_reserved {a : RegIndex} (h : RegName.ofIndex a = none) (b : Block) (d : Word) :
    regWrite b a d = b := by
  simp only [regWrite, h]

theorem readValue_regWrite_of_ne {a x : RegIndex} (ha : a ≠ 0) (hx : x ≠ a) (hs : x ≠ 1) (b : Block) (d : Word) :
    readValue (regWrite b a d) x = readValue b x := by
  cases hr : RegName.ofIndex a with
  | none => rw [regWrite_of_reserved hr]
  | some r =>
    obtain rfl := RegName.index_of_ofIndex a r hr
    cases hr' : RegName.ofIndex x with
    | none => rw [readValue_of_reserved hr', readValue_of_reserved hr']
    | some r' =>
      obtain rfl := RegName.index_of_ofIndex x r' hr'
      rw [readValue_index, readValue_index, regWrite_index]
      exact readReg_writeReg_of_ne (fun h => ha (by rw [h]; rfl)) (fun h => hx (by rw [h]))
        (fun h => hs (by rw [h]; rfl)) b d

theorem statusWord_regWrite {a : RegIndex} (ha : a ≠ 0) (b : Block) (d : Word) :
    statusWord (regWrite b a d) =
      if b.calValid = true ∧ 4 ≤ a ∧ a ≤ 10 then statusWord b ||| 0x40 else statusWord b := by
  cases hr : RegName.ofIndex a with
  | none => rw [regWrite_of_reserved hr, if_neg fun h => RegName.ofIndex_none_not_coef a hr h.2]
  | some r =>
    obtain rfl := RegName.index_of_ofIndex a r hr
    rw [regWrite_index]
    exact statusWord_writeReg (fun h => ha (by rw [h]; rfl)) b d

/-! ### The components outside the input registers, by the command that writes them (R42, R73) -/

/-- `b'` holds in CAL_VALID and in the CRC-4 fields what `b` holds. -/
structure Block.KeepsCalibration (b b' : Block) : Prop where
  calValid : b'.calValid = b.calValid
  crc4Calc : b'.crc4Calc = b.crc4Calc
  crc4Stored : b'.crc4Stored = b.crc4Stored

/-- `b'` holds in PT_VALID and in the results of PT_CONVERT what `b` holds. -/
structure Block.KeepsPressure (b b' : Block) : Prop where
  ptValid : b'.ptValid = b.ptValid
  tempI : b'.tempI = b.tempI
  presI : b'.presI = b.presI
  tempF : b'.tempF = b.tempF
  presF : b'.presF = b.presF

/-- `b'` holds in everything HT_DECODE writes, but for ERR, what `b` holds. -/
structure Block.KeepsHumidity (b b' : Block) : Prop where
  htValid : b'.htValid = b.htValid
  tCrcOk : b'.tCrcOk = b.tCrcOk
  hCrcOk : b'.hCrcOk = b.hCrcOk
  crc8T : b'.crc8T = b.crc8T
  crc8H : b'.crc8H = b.crc8H
  htTempN : b'.htTempN = b.htTempN
  htHumN : b'.htHumN = b.htHumN
  htTempF : b'.htTempF = b.htTempF
  htHumF : b'.htHumF = b.htHumF

/-- `b'` holds in ALT_VALID and ALT_F what `b` holds. -/
structure Block.KeepsAltitude (b b' : Block) : Prop where
  altValid : b'.altValid = b.altValid
  altF : b'.altF = b.altF

/-- `b'` differs from `b` at most in the input registers and WLOCK. -/
structure Block.KeepsOutputs (b b' : Block) : Prop where
  calibration : b.KeepsCalibration b'
  pressure : b.KeepsPressure b'
  humidity : b.KeepsHumidity b'
  altitude : b.KeepsAltitude b'
  err : b'.err = b.err

theorem coefWrite_keepsOutputs (b : Block) (i : Fin 7) (d : Word) : b.KeepsOutputs (coefWrite b i d) := by
  obtain ⟨-, h⟩ | ⟨-, h⟩ := coefWrite_cases b i d <;> rw [h] <;> refine ⟨?_, ?_, ?_, ?_, rfl⟩ <;> constructor <;> rfl

/-- A write to an index other than CMD reaches no output of a command. -/
theorem regWrite_keepsOutputs {a : RegIndex} (ha : a ≠ 0) (b : Block) (d : Word) :
    b.KeepsOutputs (regWrite b a d) := by
  obtain ⟨h0, -⟩ | ⟨i, -, h⟩ | ⟨-, h⟩ | ⟨-, h⟩ | ⟨k, -, h⟩ | ⟨-, h⟩ | h := regWrite_cases b a d
  case inl => exact absurd h0 ha
  case inr.inl => exact h ▸ coefWrite_keepsOutputs b i d
  all_goals rw [h]; refine ⟨?_, ?_, ?_, ?_, rfl⟩ <;> constructor <;> rfl

/-- Between `b` and the block `b'` after the instruction `i`, each output keeps its value unless `i` is the one command that
writes it, and ERR unless `i` is a command. -/
structure Block.KeepsOthersOutputs (i : Instr) (b b' : Block) : Prop where
  calibration : i ≠ .calValidate → b.KeepsCalibration b'
  pressure : i ≠ .ptConvert → b.KeepsPressure b'
  humidity : i ≠ .htDecode → b.KeepsHumidity b'
  altitude : i ≠ .altCompute → b.KeepsAltitude b'
  err : isCommand i = false → b'.err = b.err

theorem blockAfter_keepsOthersOutputs {i : Instr} (hwf : i.wf = true) (b : Block) :
    b.KeepsOthersOutputs i (blockAfter i b) := by
  cases i with
  | regRead a d => refine ⟨fun _ => ?_, fun _ => ?_, fun _ => ?_, fun _ => ?_, fun _ => rfl⟩ <;> constructor <;> rfl
  | regWrite a d =>
    obtain ⟨hcal, hpt, hht, halt, herr⟩ := regWrite_keepsOutputs (by simpa [Instr.wf] using hwf) b d
    exact ⟨fun _ => hcal, fun _ => hpt, fun _ => hht, fun _ => halt, fun _ => herr⟩
  | calValidate =>
    refine ⟨fun hi => absurd rfl hi, fun _ => ?_, fun _ => ?_, fun _ => ?_, nofun⟩ <;>
      obtain ⟨-, h⟩ | ⟨-, h⟩ := calValidate_cases b <;> rw [blockAfter, h] <;> constructor <;> rfl
  | ptConvert =>
    refine ⟨fun _ => ?_, fun hi => absurd rfl hi, fun _ => ?_, fun _ => ?_, nofun⟩ <;>
      obtain ⟨-, h⟩ | ⟨-, h⟩ := ptConvert_cases b <;> rw [blockAfter, h] <;> constructor <;> rfl
  | htDecode =>
    refine ⟨fun _ => ?_, fun _ => ?_, fun hi => absurd rfl hi, fun _ => ?_, nofun⟩ <;>
      obtain ⟨-, h⟩ | ⟨-, h⟩ := htDecode_cases b <;> rw [blockAfter, h] <;> constructor <;> rfl
  | altCompute =>
    refine ⟨fun _ => ?_, fun _ => ?_, fun _ => ?_, fun hi => absurd rfl hi, nofun⟩ <;>
      obtain ⟨-, h⟩ | ⟨-, -, h⟩ | ⟨-, -, h⟩ := altCompute_cases b <;> rw [blockAfter, h] <;> constructor <;> rfl
  | illegalCmd d => refine ⟨fun _ => ?_, fun _ => ?_, fun _ => ?_, fun _ => ?_, nofun⟩ <;> constructor <;> rfl

/-! ### The input registers and WLOCK, by the write that changes them (R21, R42) -/

/-- WLOCK changes in a write to a locked coefficient, which sets it. -/
theorem regWrite_wlock_of_ne {a : RegIndex} {d : Word} {b : Block} (hne : (regWrite b a d).wlock ≠ b.wlock) :
    (regWrite b a d).wlock = true ∧ b.calValid = true ∧ ∃ k : Fin 7, a = (RegName.coef k).index := by
  obtain ⟨-, h⟩ | ⟨i, ha, h⟩ | ⟨-, h⟩ | ⟨-, h⟩ | ⟨k, -, h⟩ | ⟨-, h⟩ | h := regWrite_cases b a d <;> rw [h] at hne ⊢
  case inl =>
    rw [← blockAfter_decodeCommand] at hne
    exact absurd (command_keepsInputs (isCommand_decodeCommand d) b).wlock hne
  case inr.inl =>
    obtain ⟨hv, hw⟩ | ⟨-, hw⟩ := coefWrite_cases b i d <;> rw [hw] at hne ⊢
    · exact ⟨rfl, hv, i, ha⟩
    · exact absurd rfl hne
  all_goals exact absurd rfl hne

theorem wlock_of_ne {i : Instr} {b : Block} (hne : (blockAfter i b).wlock ≠ b.wlock) :
    (blockAfter i b).wlock = true ∧ b.calValid = true ∧
      ∃ (k : Fin 7) (d : Word), i = .regWrite (RegName.coef k).index d := by
  cases i with
  | regRead a d => exact absurd rfl hne
  | regWrite a d =>
    obtain ⟨hw, hv, k, rfl⟩ := regWrite_wlock_of_ne hne
    exact ⟨hw, hv, k, d, rfl⟩
  | _ => exact absurd (command_keepsInputs rfl b).wlock hne

theorem readReg_of_keepsInputs {b b' : Block} (h : b.KeepsInputs b') {r : RegName} (hr : r.IsInput) :
    readReg b' r = readReg b r := by
  cases r with
  | coef i => simp only [readReg, h.coef]
  | d1 => simp only [readReg, h.d1]
  | d2 => simp only [readReg, h.d2]
  | frame k => simp only [readReg, h.frame]
  | baseline => exact h.baseline
  | _ => simp [RegName.IsInput, RegName.access] at hr

/-- An input register that reads otherwise after an instruction was written by it. -/
theorem exists_regWrite_of_readReg_ne {i : Instr} (hwf : i.wf = true) {r : RegName} (hr : r.IsInput) {b : Block}
    (hne : readReg (blockAfter i b) r ≠ readReg b r) : ∃ d, i = .regWrite r.index d := by
  cases i with
  | regRead a d => exact absurd rfl hne
  | regWrite a d =>
    by_cases ha : r.index = a
    · exact ⟨d, by rw [ha]⟩
    · have hs : r.index ≠ 1 := by
        intro h
        obtain rfl : r = .status := Option.some.inj ((RegName.ofIndex_index r).symm.trans (congrArg RegName.ofIndex h))
        simp [RegName.IsInput, RegName.access] at hr
      have hread := readValue_regWrite_of_ne (by simpa [Instr.wf] using hwf) ha hs b d
      rw [readValue_index, readValue_index] at hread
      exact absurd hread hne
  | _ => exact absurd (readReg_of_keepsInputs (command_keepsInputs rfl b) hr) hne

/-- Zero-extending loses nothing, so a narrow register that changed reads otherwise. -/
theorem setWidth_ne_of_ne {w v : Nat} (h : w ≤ v) {x y : BitVec w} (hne : x ≠ y) : x.setWidth v ≠ y.setWidth v := by
  intro he
  have back := congrArg (BitVec.setWidth w) he
  rw [BitVec.setWidth_setWidth_of_le _ h, BitVec.setWidth_setWidth_of_le _ h, BitVec.setWidth_eq, BitVec.setWidth_eq] at back
  exact hne back

theorem exec_response_of_ne {i : Instr} {s t : State} (h : exec i s = .next t) (hne : t.response ≠ s.response) :
    ∃ a d, i = .regRead a d := by
  cases i with
  | regRead a d => exact ⟨a, d, rfl⟩
  | _ => cases h; exact absurd rfl hne

/-! ### Twice is once (R56) -/

theorem calValidate_calValidate (b : Block) : calValidate (calValidate b) = calValidate b := by
  have hc := (calValidate_keepsInputs b).coef
  by_cases h : crc4 b.coef = storedChecksum b.coef
  · rw [calValidate_of_match (b := calValidate b) (by rwa [hc]), hc, calValidate_of_match h]
  · rw [calValidate_of_mismatch (b := calValidate b) (by rwa [hc]), hc, calValidate_of_mismatch h]

theorem ptConvert_ptConvert (b : Block) : ptConvert (ptConvert b) = ptConvert b := by
  obtain ⟨hv, h⟩ | ⟨hv, h⟩ := ptConvert_cases b <;> rw [h] <;> simp only [ptConvert, hv] <;> rfl

theorem htDecode_htDecode (b : Block) : htDecode (htDecode b) = htDecode b := by
  have hf := (htDecode_keepsInputs b).frame
  by_cases h : FramePasses b.frame
  · rw [htDecode_of_pass (b := htDecode b) (by rwa [hf]), hf, htDecode_of_pass h]
  · rw [htDecode_of_fail (b := htDecode b) (by rwa [hf]), hf, htDecode_of_fail h]

theorem altCompute_altCompute (b : Block) : altCompute (altCompute b) = altCompute b := by
  obtain ⟨hp, h⟩ | ⟨hp, ha, h⟩ | ⟨hp, ha, h⟩ := altCompute_cases b <;> rw [h]
  · simp only [altCompute, hp]
    rfl
  · simp only [altCompute, hp, ha]
    rfl
  · simp only [altCompute, hp, ha]
    rfl

theorem command_command {i : Instr} (hi : isCommand i = true) (b : Block) :
    blockAfter i (blockAfter i b) = blockAfter i b := by
  cases i with
  | regRead a d => cases hi
  | regWrite a d => cases hi
  | calValidate => exact calValidate_calValidate b
  | ptConvert => exact ptConvert_ptConvert b
  | htDecode => exact htDecode_htDecode b
  | altCompute => exact altCompute_altCompute b
  | illegalCmd d => rfl

theorem coefWrite_coefWrite (b : Block) (i : Fin 7) (d : Word) :
    coefWrite (coefWrite b i d) i d = coefWrite b i d := by
  obtain ⟨hv, h⟩ | ⟨hv, h⟩ := coefWrite_cases b i d <;> rw [h]
  · simp only [coefWrite, hv, if_true]
  · simp [coefWrite, hv, Vector.set_set]

theorem writeReg_writeReg (b : Block) (r : RegName) (d : Word) : writeReg (writeReg b r d) r d = writeReg b r d := by
  cases r with
  | cmd =>
    have hd (b : Block) : writeReg b .cmd d = blockAfter (decodeCommand d) b := (blockAfter_decodeCommand d b).symm
    simp only [hd, command_command (isCommand_decodeCommand d)]
  | coef i => exact coefWrite_coefWrite b i d
  | frame k => simp only [writeReg, Vector.set_set]
  | _ => rfl

theorem regWrite_regWrite (b : Block) (a : RegIndex) (d : Word) : regWrite (regWrite b a d) a d = regWrite b a d := by
  cases hr : RegName.ofIndex a with
  | none => rw [regWrite_of_reserved hr, regWrite_of_reserved hr]
  | some r => simp only [regWrite, hr, writeReg_writeReg]

theorem exec_eq_withBlock {i : Instr} (hi : ∀ a d, i ≠ .regRead a d) (s : State) :
    exec i s = .next (s.withBlock (blockAfter i s.block)) := by
  cases i with
  | regRead a d => exact absurd rfl (hi a d)
  | _ => rfl

theorem blockAfter_blockAfter (i : Instr) (b : Block) : blockAfter i (blockAfter i b) = blockAfter i b := by
  cases i with
  | regRead a d => rfl
  | regWrite a d => exact regWrite_regWrite b a d
  | _ => exact command_command rfl b

theorem exec_again {i : Instr} (hi : ∀ a d, i ≠ .regRead a d) (s : State) :
    ∃ t, exec i s = .next t ∧ exec i t = .next t := by
  refine ⟨_, exec_eq_withBlock hi s, ?_⟩
  rw [exec_eq_withBlock hi, State.withBlock_block, blockAfter_blockAfter]
  rfl

/-! ### Errors and results (R203) -/

/-- A command that fails its gate writes flags and checksums, and no result. -/
theorem resultRegs_of_err {i : Instr} (hi : isCommand i = true) {b : Block} (he : (blockAfter i b).err ≠ 0) :
    resultRegs (blockAfter i b) = resultRegs b := by
  cases i with
  | regRead a d => cases hi
  | regWrite a d => cases hi
  | calValidate => obtain ⟨-, h⟩ | ⟨-, h⟩ := calValidate_cases b <;> rw [blockAfter, h] <;> rfl
  | ptConvert =>
    obtain ⟨-, h⟩ | ⟨-, h⟩ := ptConvert_cases b <;> rw [blockAfter, h] at he ⊢
    · exact absurd rfl he
    · rfl
  | htDecode =>
    obtain ⟨-, h⟩ | ⟨-, h⟩ := htDecode_cases b <;> rw [blockAfter, h] at he ⊢
    · exact absurd rfl he
    · rfl
  | altCompute =>
    obtain ⟨-, h⟩ | ⟨-, -, h⟩ | ⟨-, -, h⟩ := altCompute_cases b <;> rw [blockAfter, h] at he ⊢
    · rfl
    · rfl
    · exact absurd rfl he
  | illegalCmd d => rfl

/-! ### Bits that read as 0 (R25) -/

theorem extractLsb'_setWidth_eq_zero {w v start : Nat} (len : Nat) (h : w ≤ start) (x : BitVec w) :
    (x.setWidth v).extractLsb' start len = 0 := by
  ext i hi
  simp [BitVec.getLsbD_of_ge x (start + i) (by omega)]

/-! ### The statements -/

/-- Settles O6: the other indices keep their registers, and STATUS takes WLOCK from a locked coefficient. -/
theorem regWriteLeavesOtherRegisters : Obligations.RegWriteLeavesOtherRegisters := by
  intro a d s ha
  refine ⟨_, exec_regWrite_eq a d s, rfl, rfl, fun x hx hs => readValue_regWrite_of_ne ha hx hs s.block d, ?_⟩
  rw [readValue_status, readValue_status]
  exact statusWord_regWrite ha s.block d

/-- Settles O8. -/
theorem identicalWritesLeaveOneState : Obligations.IdenticalWritesLeaveOneState := fun _ s hi => exec_again hi s

/-- Settles O38. -/
theorem errorsKeepEveryResult : Obligations.ErrorsKeepEveryResult := by
  intro i s t hi h he
  rw [(exec_inv h).1] at he ⊢
  exact resultRegs_of_err hi he

/-- Settles O39: a flag that changed rules out every instruction that keeps it. -/
theorem everyFlagHasItsWriter : Obligations.EveryFlagHasItsWriter := by
  intro i s t hwf h
  rw [(exec_inv h).1]
  have keeps := blockAfter_keepsOthersOutputs hwf s.block
  refine ⟨?calValid, ?ptValid, ?htValid, ?altValid, ?passBits, wlock_of_ne, ?err⟩
  case calValid => exact fun hne => of_not_not fun hi => hne (keeps.calibration hi).calValid
  case ptValid => exact fun hne => of_not_not fun hi => hne (keeps.pressure hi).ptValid
  case htValid => exact fun hne => of_not_not fun hi => hne (keeps.humidity hi).htValid
  case altValid => exact fun hne => of_not_not fun hi => hne (keeps.altitude hi).altValid
  case passBits =>
    refine fun hne => of_not_not fun hi => ?_
    obtain ⟨-, hT, hH, -⟩ := keeps.humidity hi
    simp [hT, hH] at hne
  case err =>
    intro hne
    rw [← Bool.not_eq_false]
    exact fun hi => hne (keeps.err hi)

/-- Settles O40: an input register that changed reads otherwise, and every other one that changed rules out the
instructions that keep it. -/
theorem everyRegisterHasItsWriter : Obligations.EveryRegisterHasItsWriter := by
  intro i s t hwf h
  rw [(exec_inv h).1]
  have keeps := blockAfter_keepsOthersOutputs hwf s.block
  refine ⟨?coef, ?d1, ?d2, ?frame, ?baseline, ?crc4, ?crc8, ?pressure, ?humidity, ?altitude, ?response⟩
  case coef =>
    exact fun k hne => exists_regWrite_of_readReg_ne (r := .coef k) hwf (.inr rfl) (setWidth_ne_of_ne (by decide) hne)
  case d1 =>
    exact fun hne => exists_regWrite_of_readReg_ne (r := .d1) hwf (.inl rfl) (setWidth_ne_of_ne (by decide) hne)
  case d2 =>
    exact fun hne => exists_regWrite_of_readReg_ne (r := .d2) hwf (.inl rfl) (setWidth_ne_of_ne (by decide) hne)
  case frame =>
    exact fun k hne => exists_regWrite_of_readReg_ne (r := .frame k) hwf (.inl rfl) (setWidth_ne_of_ne (by decide) hne)
  case baseline => exact exists_regWrite_of_readReg_ne (r := .baseline) hwf (.inl rfl)
  case crc4 =>
    refine fun hne => of_not_not fun hi => ?_
    obtain ⟨-, hcalc, hstored⟩ := keeps.calibration hi
    simp [hcalc, hstored] at hne
  case crc8 =>
    refine fun hne => of_not_not fun hi => ?_
    obtain ⟨-, -, -, hT, hH, -⟩ := keeps.humidity hi
    simp [hT, hH] at hne
  case pressure =>
    refine fun hne => of_not_not fun hi => ?_
    obtain ⟨-, htI, hpI, htF, hpF⟩ := keeps.pressure hi
    simp [htI, hpI, htF, hpF] at hne
  case humidity =>
    refine fun hne => of_not_not fun hi => ?_
    obtain ⟨-, -, -, -, -, hTN, hHN, hTF, hHF⟩ := keeps.humidity hi
    simp [hTN, hHN, hTF, hHF] at hne
  case altitude => exact fun hne => of_not_not fun hi => hne (keeps.altitude hi).altF
  case response =>
    intro hne
    obtain ⟨a, d, rfl⟩ := exec_response_of_ne h hne
    exact ⟨a, d, rfl, rfl⟩

/-- Settles O7: read-only registers and reserved indices ignore writes, and each narrow register is a widened value. -/
theorem accessRightsOfTheWindow : Obligations.AccessRightsOfTheWindow := by
  refine ⟨?readOnly, ?writeOnly, ?reserved, ?coef, ?frame, ?words⟩
  case readOnly =>
    intro r d s hr
    rw [exec_regWrite_index_eq, writeReg_of_ro hr]
  case writeOnly =>
    intro r b hr
    cases r with
    | cmd => exact readValue_cmd b
    | _ => cases hr
  case reserved =>
    intro a d s ha
    exact ⟨readValue_of_reserved ha s.block, by rw [exec_regWrite_eq, regWrite_of_reserved ha]; rfl⟩
  case coef =>
    intro b i
    rw [readValue_index]
    exact extractLsb'_setWidth_eq_zero 16 (le_refl 16) _
  case frame =>
    intro b k
    rw [readValue_index]
    exact extractLsb'_setWidth_eq_zero 24 (le_refl 8) _
  case words =>
    intro b
    rw [readValue_status, readValue_crc, statusWord_eq_setWidth, crcWord_eq_setWidth]
    exact ⟨extractLsb'_setWidth_eq_zero 8 (le_refl 24) b.d1, extractLsb'_setWidth_eq_zero 8 (le_refl 24) b.d2,
      extractLsb'_setWidth_eq_zero 20 (le_refl 12) _, extractLsb'_setWidth_eq_zero 8 (le_refl 24) _⟩

end Machine

end Sys2Proof
end

section
/-!
PROOFS. The CRC-4 over GF(2) (41_calibration.md R106): the remainder is linear in the stream and the stream in the table, so a
table with one bit flipped is valid exactly where the table of that bit alone is.
-/

namespace Sys2Proof.Machine

/-! ### The remainder is linear in the stream -/

theorem crcBit_xor {w : Nat} (poly x y : BitVec w) : crcBit poly (x ^^^ y) = crcBit poly x ^^^ crcBit poly y := by
  have hm : (x ^^^ y).msb = (x.msb ^^ y.msb) := BitVec.msb_xor
  cases hx : x.msb <;> cases hy : y.msb <;> rw [hx, hy] at hm
  · rw [crcBit_of_not_msb hx, crcBit_of_not_msb hy, crcBit_of_not_msb hm, BitVec.shiftLeft_xor_distrib]
  · rw [crcBit_of_not_msb hx, crcBit_of_msb hy, crcBit_of_msb hm, BitVec.shiftLeft_xor_distrib, BitVec.xor_assoc]
  · rw [crcBit_of_msb hx, crcBit_of_not_msb hy, crcBit_of_msb hm, BitVec.shiftLeft_xor_distrib]
    ac_rfl
  · rw [crcBit_of_msb hx, crcBit_of_msb hy, crcBit_of_not_msb hm, BitVec.shiftLeft_xor_distrib]
    calc x <<< 1 ^^^ y <<< 1
        = (x <<< 1 ^^^ y <<< 1) ^^^ (poly ^^^ poly) := by rw [BitVec.xor_self, BitVec.xor_zero]
      _ = (x <<< 1 ^^^ poly) ^^^ (y <<< 1 ^^^ poly) := by ac_rfl

theorem repeat_crcBit_xor {w : Nat} (poly x y : BitVec w) (n : Nat) :
    Nat.repeat (crcBit poly) n (x ^^^ y) = Nat.repeat (crcBit poly) n x ^^^ Nat.repeat (crcBit poly) n y := by
  induction n with
  | zero => rfl
  | succ n ih => rw [Nat.repeat, Nat.repeat, Nat.repeat, ih, crcBit_xor]

theorem crcByte_xor {w : Nat} (poly x y : BitVec w) (b c : Byte) :
    crcByte poly (x ^^^ y) (b ^^^ c) = crcByte poly x b ^^^ crcByte poly y c := by
  have regroup : (x ^^^ y) ^^^ (b ^^^ c).setWidth w = (x ^^^ b.setWidth w) ^^^ (y ^^^ c.setWidth w) := by
    rw [BitVec.setWidth_xor]
    ac_rfl
  rw [crcByte, regroup]
  exact repeat_crcBit_xor ..

theorem foldl_crcByte_xor {w : Nat} (poly : BitVec w) :
    ∀ (s s' : List Byte) (x y : BitVec w), s.length = s'.length →
      (List.zipWith (· ^^^ ·) s s').foldl (crcByte poly) (x ^^^ y) =
        s.foldl (crcByte poly) x ^^^ s'.foldl (crcByte poly) y
  | [], [], _, _, _ => rfl
  | b :: s, c :: s', x, y, h => by
    rw [List.zipWith_cons_cons, List.foldl_cons, crcByte_xor]
    exact foldl_crcByte_xor poly s s' _ _ (Nat.succ.inj h)

theorem crc4Remainder_xor {s s' : List Byte} (h : s.length = s'.length) :
    crc4Remainder (List.zipWith (· ^^^ ·) s s') = crc4Remainder s ^^^ crc4Remainder s' :=
  foldl_crcByte_xor 0x3000 s s' 0 0 h

/-! ### The stream and the stored nibble are linear in the table -/

theorem xorTable_getElem (C D : CoefTable) (i : Nat) (hi : i < 7) : (xorTable C D)[i] = C[i] ^^^ D[i] :=
  Vector.getElem_zipWith ..

theorem xor_and_mask (x y m : Coef) : (x ^^^ y) &&& m = (x &&& m) ^^^ (y &&& m) := by
  ext i hi
  simp [Bool.and_xor_distrib_right]

theorem crc4Stream_xorTable (C D : CoefTable) :
    crc4Stream (xorTable C D) = List.zipWith (· ^^^ ·) (crc4Stream C) (crc4Stream D) := by
  simp [crc4Stream, crc4Entries, bytesOf, xorTable_getElem, BitVec.extractLsb'_xor, xor_and_mask]

theorem storedChecksum_xorTable (C D : CoefTable) :
    storedChecksum (xorTable C D) = storedChecksum C ^^^ storedChecksum D := by
  rw [storedChecksum, xorTable_getElem, BitVec.extractLsb'_xor]
  rfl

/-- Settles O14: the stream is linear in the table, the remainder in the stream, and the nibble in the remainder. -/
theorem crc4IsLinear : Obligations.Crc4IsLinear := by
  intro C D
  have hlen : (crc4Stream C).length = (crc4Stream D).length := by rw [crc4Stream_length, crc4Stream_length]
  rw [crc4, crc4Stream_xorTable, crc4Remainder_xor hlen, BitVec.extractLsb'_xor]
  rfl

/-! ### One flipped bit (R106) -/

/-- The table that is 0 but for bit `k` of coefficient `i`. -/
def bitTable (i : Fin 7) (k : Fin 16) : CoefTable := flipBit (Vector.replicate 7 0) i k

theorem flipBit_eq_xorTable (C : CoefTable) (i : Fin 7) (k : Fin 16) : flipBit C i k = xorTable C (bitTable i k) := by
  ext j hj
  rw [xorTable_getElem, bitTable, flipBit, flipBit, Vector.getElem_set, Vector.getElem_set]
  split
  next h => subst h; simp
  next h => simp

/-- Adding a table keeps validity exactly where that table is valid. -/
theorem tableValid_xorTable {C : CoefTable} (hC : tableValid C = true) (D : CoefTable) :
    tableValid (xorTable C D) = tableValid D := by
  rw [tableValid_iff] at hC
  rw [tableValid, tableValid, crc4IsLinear C D, storedChecksum_xorTable, hC, Bool.eq_iff_iff, beq_iff_eq, beq_iff_eq]
  exact BitVec.xor_right_inj _

/-- Each of the 112 single bits makes a table that CAL_VALIDATE would reject. -/
theorem not_tableValid_bitTable : ∀ (i : Fin 7) (k : Fin 16), tableValid (bitTable i k) = false := by decide +kernel

/-- Settles O15: a flip adds a single-bit table, and none of those is valid. -/
theorem singleBitFlipsAreRejected : Obligations.SingleBitFlipsAreRejected := by
  intro C i k hC
  rw [flipBit_eq_xorTable, tableValid_xorTable hC, not_tableValid_bitTable]

end Sys2Proof.Machine
end

section
/-!
PROOFS. The compensation's table of bounds (42_compensation.md R131), the polynomial in the declared widths, and what a
conversion depends on (R126, R136).
-/

namespace Sys2Proof.Machine

/-! ### The bounds (R131) -/

theorem compTerms_dT_sq_lt (C : CoefTable) (d1 d2 : Count) :
    0 ≤ (compTerms C d1 d2).dT * (compTerms C d1 d2).dT ∧ (compTerms C d1 d2).dT * (compTerms C d1 d2).dT < 2 ^ 48 := by
  obtain ⟨hl, hu⟩ := compTerms_dT_bounds C d1 d2
  have hle : |(compTerms C d1 d2).dT| ≤ |16777215| := by rw [abs_le, abs_of_pos (by norm_num)]; omega
  have hsq := abs_le_iff_mul_self_le.1 hle
  exact ⟨mul_self_nonneg _, by omega⟩

/-- A table of coefficients at their largest. -/
def fullTable : CoefTable := Vector.replicate 7 0xFFFF

theorem compTerms_temp_max : (compTerms (fullTable.set 5 0) 0 0xFFFFFF).temp1 = 133069 ∧
    (compTerms (fullTable.set 5 0) 0 0xFFFFFF).temp = 133069 := by decide +kernel

theorem compTerms_temp_min : (compTerms fullTable 0 0).temp1 = -129068 ∧ (compTerms fullTable 0 0).temp = -260136 := by
  decide +kernel

/-- Settles O18: R131's rows, the corrections' sharper bounds among them, and the inputs that reach TEMP's bounds. -/
theorem compensationBounds : Obligations.CompensationBounds := by
  refine ⟨fun C d1 d2 => ?_, ⟨_, _, _, compTerms_temp_max⟩, ⟨_, _, _, compTerms_temp_min⟩⟩
  obtain ⟨hdTl, hdTu⟩ := compTerms_dT_bounds C d1 d2
  obtain ⟨hprodl, hprodu⟩ := coef_mul_dT_bounds C d1 d2 C[6]
  obtain ⟨ht1l, ht1u⟩ := compTerms_temp1_bounds C d1 d2
  obtain ⟨⟨ht2l, ht2u⟩, ⟨hoff2l, hoff2u⟩, hsens2l, hsens2u⟩ := compTerms_corrections_bounds C d1 d2
  obtain ⟨htl, htu⟩ := compTerms_temp_bounds C d1 d2
  exact ⟨hdTl, hdTu, by rw [mul_comm]; omega, (compTerms_dT_sq_lt C d1 d2).2, ht1l, ht1u, ht2l, by omega, htl, htu,
    hoff2l, by omega, hsens2l, by omega, compTerms_off_natAbs_lt C d1 d2, compTerms_sens_natAbs_lt C d1 d2,
    compTerms_d1_mul_sens_natAbs_lt C d1 d2, compTerms_p_natAbs_lt C d1 d2⟩

/-! ### Wrapping arithmetic on patterns of integers (R7, R9)

Sums, differences and products of patterns are patterns of the integers' at every width. A quotient, a right shift, a
widening and a comparison are so where the integers fit. -/

/-- An integer that 32 bits hold in two's complement. -/
def FitsS32 (a : Int) : Prop := -2 ^ 31 ≤ a ∧ a < 2 ^ 31

/-- An integer that 64 bits hold in two's complement. -/
def FitsS64 (a : Int) : Prop := -2 ^ 63 ≤ a ∧ a < 2 ^ 63

theorem FitsS32.toInt_ofInt {a : Int} (h : FitsS32 a) : (BitVec.ofInt 32 a).toInt = a :=
  BitVec.toInt_ofInt_eq_self (by norm_num) h.1 h.2

theorem FitsS64.toInt_ofInt {a : Int} (h : FitsS64 a) : (BitVec.ofInt 64 a).toInt = a :=
  BitVec.toInt_ofInt_eq_self (by norm_num) h.1 h.2

theorem ofInt_sub {w : Nat} (a b : Int) : BitVec.ofInt w (a - b) = BitVec.ofInt w a - BitVec.ofInt w b := by
  rw [sub_eq_add_neg, BitVec.ofInt_add, BitVec.ofInt_neg, BitVec.sub_eq_add_neg]

theorem setWidth_eq_ofInt {w : Nat} (v : Nat) (x : BitVec w) : x.setWidth v = BitVec.ofInt v x.toNat := by
  rw [BitVec.ofInt_natCast, BitVec.ofNat_toNat]

theorem setWidth_ofInt (a : Int) : (BitVec.ofInt 64 a).setWidth 32 = BitVec.ofInt 32 a := by
  apply BitVec.eq_of_toNat_eq
  simp only [BitVec.toNat_setWidth, BitVec.toNat_ofInt]
  omega

theorem signExtend_ofInt {a : Int} (h : FitsS32 a) : (BitVec.ofInt 32 a).signExtend 64 = BitVec.ofInt 64 a := by
  rw [← BitVec.ofInt_toInt (x := (BitVec.ofInt 32 a).signExtend 64), BitVec.toInt_signExtend_of_le (by norm_num),
    h.toInt_ofInt]

theorem sshiftRight_ofInt {a : Int} (h : FitsS64 a) (k : Nat) :
    (BitVec.ofInt 64 a).sshiftRight k = BitVec.ofInt 64 (asr a k) := by
  rw [← BitVec.ofInt_toInt (x := (BitVec.ofInt 64 a).sshiftRight k), BitVec.toInt_sshiftRight, h.toInt_ofInt, asr]

theorem sdiv_ofInt {a b : Int} (ha : FitsS64 a) (hb : FitsS64 b) :
    (BitVec.ofInt 64 a).sdiv (BitVec.ofInt 64 b) = BitVec.ofInt 64 (tdiv a b) := by
  rw [← BitVec.toInt_inj, BitVec.toInt_sdiv, ha.toInt_ofInt, hb.toInt_ofInt, BitVec.toInt_ofInt, tdiv]

theorem slt_ofInt {a b : Int} (ha : FitsS32 a) (hb : FitsS32 b) :
    (BitVec.ofInt 32 a).slt (BitVec.ofInt 32 b) = decide (a < b) := by
  rw [BitVec.slt_eq_decide, ha.toInt_ofInt, hb.toInt_ofInt]

/-- A quotient of a multiple of a square, which is the form of OFF2 and SENS2 (R121). -/
theorem sdiv_mul_sq_ofInt {c x m : Int} (h : FitsS64 (c * x ^ 2)) (hm : FitsS64 m) :
    (BitVec.ofInt 64 c * (BitVec.ofInt 64 x * BitVec.ofInt 64 x)).sdiv (BitVec.ofInt 64 m) =
      BitVec.ofInt 64 (tdiv (c * x ^ 2) m) := by
  rw [← BitVec.ofInt_mul, ← BitVec.ofInt_mul, ← pow_two, sdiv_ofInt h hm]

/-! ### Each intermediate in its declared width (R120) -/

section Declared

variable (C : CoefTable) (d1 d2 : Count)

theorem declared_dT :
    d2.setWidth 32 - C[5].setWidth 32 * 2 ^ 8 = BitVec.ofInt 32 (compTerms C d1 d2).dT := by
  rw [compTerms_dT, setWidth_eq_ofInt, setWidth_eq_ofInt, ofInt_sub, BitVec.ofInt_mul]
  rfl

theorem compTerms_dT_fits : FitsS32 (compTerms C d1 d2).dT := by
  have h := compTerms_dT_bounds C d1 d2
  unfold FitsS32
  omega

theorem coef_mul_dT_fits (c : Coef) : FitsS64 (c.toNat * (compTerms C d1 d2).dT) := by
  have h := coef_mul_dT_bounds C d1 d2 c
  unfold FitsS64
  omega

/-- A coefficient's product with dT over a power of two, which is how C[3], C[4] and C[6] enter. -/
theorem declared_coef_quotient (c : Coef) {m : Int} (hm : FitsS64 m) :
    (c.setWidth 64 * BitVec.ofInt 64 (compTerms C d1 d2).dT).sdiv (BitVec.ofInt 64 m) =
      BitVec.ofInt 64 (tdiv (c.toNat * (compTerms C d1 d2).dT) m) := by
  rw [setWidth_eq_ofInt, ← BitVec.ofInt_mul, sdiv_ofInt (coef_mul_dT_fits C d1 d2 c) hm]

theorem declared_temp1 :
    2000 + ((BitVec.ofInt 64 (compTerms C d1 d2).dT * C[6].setWidth 64).sdiv (2 ^ 23)).setWidth 32 =
      BitVec.ofInt 32 (compTerms C d1 d2).temp1 := by
  have hq := declared_coef_quotient C d1 d2 C[6] (m := 2 ^ 23) ⟨by norm_num, by norm_num⟩
  rw [compTerms_temp1, BitVec.ofInt_add, mul_comm _ (C[6].toNat : Int), ← setWidth_ofInt (tdiv _ _), ← hq,
    BitVec.mul_comm]
  rfl

theorem declared_off1 :
    C[2].setWidth 64 * 2 ^ 17 + (C[4].setWidth 64 * BitVec.ofInt 64 (compTerms C d1 d2).dT).sdiv (2 ^ 6) =
      BitVec.ofInt 64 (compTerms C d1 d2).off1 := by
  have hq := declared_coef_quotient C d1 d2 C[4] (m := 2 ^ 6) ⟨by norm_num, by norm_num⟩
  rw [compTerms_off1, BitVec.ofInt_add, BitVec.ofInt_mul, ← setWidth_eq_ofInt, ← hq]
  rfl

theorem declared_sens1 :
    C[1].setWidth 64 * 2 ^ 16 + (C[3].setWidth 64 * BitVec.ofInt 64 (compTerms C d1 d2).dT).sdiv (2 ^ 7) =
      BitVec.ofInt 64 (compTerms C d1 d2).sens1 := by
  have hq := declared_coef_quotient C d1 d2 C[3] (m := 2 ^ 7) ⟨by norm_num, by norm_num⟩
  rw [compTerms_sens1, BitVec.ofInt_add, BitVec.ofInt_mul, ← setWidth_eq_ofInt, ← hq]
  rfl

theorem compTerms_temp1_fits : FitsS32 (compTerms C d1 d2).temp1 := by
  have h := compTerms_temp1_bounds C d1 d2
  unfold FitsS32
  omega

/-- The first-order TEMP less an offset, whose square enters OFF2 and SENS2. -/
theorem temp1_sub_sq_fits {c x : Int} (hc : 0 ≤ c ∧ c ≤ 11) (hx : -2000 ≤ x ∧ x ≤ 2000) :
    FitsS64 (c * ((compTerms C d1 d2).temp1 - x) ^ 2) := by
  have h := compTerms_temp1_bounds C d1 d2
  have hsq : ((compTerms C d1 d2).temp1 - x) ^ 2 ≤ 135069 ^ 2 := sq_le_sq' (by omega) (by omega)
  have hnonneg : 0 ≤ ((compTerms C d1 d2).temp1 - x) ^ 2 := sq_nonneg _
  constructor <;> nlinarith

theorem declared_t2 :
    (BitVec.ofInt 64 (compTerms C d1 d2).dT * BitVec.ofInt 64 (compTerms C d1 d2).dT).sshiftRight 31 =
      BitVec.ofInt 64 (asr ((compTerms C d1 d2).dT * (compTerms C d1 d2).dT) 31) := by
  have h := compTerms_dT_sq_lt C d1 d2
  rw [← BitVec.ofInt_mul, sshiftRight_ofInt (by unfold FitsS64; omega)]

theorem declared_p : (d1.setWidth 64 * BitVec.ofInt 64 (compTerms C d1 d2).sens).sshiftRight 21 -
      BitVec.ofInt 64 (compTerms C d1 d2).off = BitVec.ofInt 64 (asr (d1.toNat * (compTerms C d1 d2).sens) 21 -
        (compTerms C d1 d2).off) ∧
    (BitVec.ofInt 64 (asr (d1.toNat * (compTerms C d1 d2).sens) 21 - (compTerms C d1 d2).off)).sshiftRight 15 =
      BitVec.ofInt 64 (compTerms C d1 d2).p := by
  have hs := compTerms_d1_mul_sens_natAbs_lt C d1 d2
  have ho := compTerms_off_natAbs_lt C d1 d2
  constructor
  · rw [setWidth_eq_ofInt, ← BitVec.ofInt_mul, sshiftRight_ofInt (by unfold FitsS64; omega), ofInt_sub]
  · rw [compTerms_p, sshiftRight_ofInt]
    rw [asr_eq_div]
    unfold FitsS64
    omega

theorem declared_slt {b : BitVec 32} {x : Int} (hb : b = BitVec.ofInt 32 x) (hx : FitsS32 x) :
    (BitVec.ofInt 32 (compTerms C d1 d2).temp1).slt b = decide ((compTerms C d1 d2).temp1 < x) := by
  rw [hb, slt_ofInt (compTerms_temp1_fits C d1 d2) hx]

/-- OFF2 and SENS2 of the first branch. -/
theorem declared_first_branch :
    (5 * (BitVec.ofInt 64 ((compTerms C d1 d2).temp1 - 2000) *
      BitVec.ofInt 64 ((compTerms C d1 d2).temp1 - 2000))).sdiv 2 =
        BitVec.ofInt 64 (tdiv (5 * ((compTerms C d1 d2).temp1 - 2000) ^ 2) 2) ∧
    (5 * (BitVec.ofInt 64 ((compTerms C d1 d2).temp1 - 2000) *
      BitVec.ofInt 64 ((compTerms C d1 d2).temp1 - 2000))).sdiv 4 =
        BitVec.ofInt 64 (tdiv (5 * ((compTerms C d1 d2).temp1 - 2000) ^ 2) 4) := by
  have fits := temp1_sub_sq_fits C d1 d2 (c := 5) (x := 2000) (by omega) (by omega)
  exact ⟨sdiv_mul_sq_ofInt (c := 5) (m := 2) fits ⟨by norm_num, by norm_num⟩,
    sdiv_mul_sq_ofInt (c := 5) (m := 4) fits ⟨by norm_num, by norm_num⟩⟩

/-- What the second branch adds to OFF2 and SENS2. -/
theorem declared_second_branch :
    7 * (BitVec.ofInt 64 ((compTerms C d1 d2).temp1 + 1500) * BitVec.ofInt 64 ((compTerms C d1 d2).temp1 + 1500)) =
        BitVec.ofInt 64 (7 * ((compTerms C d1 d2).temp1 + 1500) ^ 2) ∧
    (11 * (BitVec.ofInt 64 ((compTerms C d1 d2).temp1 + 1500) *
      BitVec.ofInt 64 ((compTerms C d1 d2).temp1 + 1500))).sdiv 2 =
        BitVec.ofInt 64 (tdiv (11 * ((compTerms C d1 d2).temp1 + 1500) ^ 2) 2) := by
  have fits := temp1_sub_sq_fits C d1 d2 (c := 11) (x := -1500) (by omega) (by omega)
  rw [sub_neg_eq_add] at fits
  refine ⟨?_, sdiv_mul_sq_ofInt (c := 11) (m := 2) fits ⟨by norm_num, by norm_num⟩⟩
  rw [pow_two, BitVec.ofInt_mul, BitVec.ofInt_mul]
  rfl

/-- The corrections subtracted under their two conditions, for an integer `u` with the corrections `x` and `y`. -/
theorem declared_corrected {w : Nat} {u x y z : Int}
    (hge : 2000 ≤ (compTerms C d1 d2).temp1 → z = 0)
    (hfirst : -1500 ≤ (compTerms C d1 d2).temp1 → (compTerms C d1 d2).temp1 < 2000 → z = x)
    (hboth : (compTerms C d1 d2).temp1 < -1500 → z = x + y) :
    (if decide ((compTerms C d1 d2).temp1 < 2000) then
        BitVec.ofInt w u - (if decide ((compTerms C d1 d2).temp1 < -1500) then BitVec.ofInt w x + BitVec.ofInt w y
          else BitVec.ofInt w x)
      else BitVec.ofInt w u) = BitVec.ofInt w (u - z) := by
  obtain h | h := le_or_gt 2000 (compTerms C d1 d2).temp1
  · simp [hge h, h.not_gt]
  obtain h' | h' := le_or_gt (-1500) (compTerms C d1 d2).temp1
  · simp [hfirst h' h, h, h'.not_gt, ofInt_sub]
  · simp [hboth h', h, h', ofInt_sub, BitVec.ofInt_add]

/-- Every intermediate in its declared width is the pattern of the integer's, and so are the results. -/
theorem compensateDeclared_eq : compensateDeclared C d1 d2 =
    (BitVec.ofInt 32 (compTerms C d1 d2).temp, BitVec.ofInt 64 (compTerms C d1 d2).p) := by
  unfold compensateDeclared
  extract_lets c64 dT dT64 temp1 off1 sens1 below farBelow t2 off2 sens2 first second off2' sens2' temp off sens
  have hdT64 : dT64 = BitVec.ofInt 64 (compTerms C d1 d2).dT :=
    (congrArg (BitVec.signExtend 64) (declared_dT C d1 d2)).trans (signExtend_ofInt (compTerms_dT_fits C d1 d2))
  have htemp1 : temp1 = BitVec.ofInt 32 (compTerms C d1 d2).temp1 := by
    simp only [temp1, c64, hdT64, declared_temp1]
  have hwide : temp1.signExtend 64 = BitVec.ofInt 64 (compTerms C d1 d2).temp1 :=
    (congrArg (BitVec.signExtend 64) htemp1).trans (signExtend_ofInt (compTerms_temp1_fits C d1 d2))
  have hbelow : below = BitVec.ofInt 64 ((compTerms C d1 d2).temp1 - 2000) := by
    rw [ofInt_sub, ← hwide]; rfl
  have hfarBelow : farBelow = BitVec.ofInt 64 ((compTerms C d1 d2).temp1 + 1500) := by
    rw [BitVec.ofInt_add, ← hwide]; rfl
  have hfirst : first = decide ((compTerms C d1 d2).temp1 < 2000) :=
    (congrArg (BitVec.slt · 2000) htemp1).trans (declared_slt C d1 d2 (by decide) ⟨by norm_num, by norm_num⟩)
  have hsecond : second = decide ((compTerms C d1 d2).temp1 < -1500) :=
    (congrArg (BitVec.slt · (-1500)) htemp1).trans (declared_slt C d1 d2 (by decide) ⟨by norm_num, by norm_num⟩)
  obtain ⟨hoff2, hsens2⟩ := declared_first_branch C d1 d2
  obtain ⟨hoffFar, hsensFar⟩ := declared_second_branch C d1 d2
  have htemp : temp = BitVec.ofInt 32 (compTerms C d1 d2).temp := by
    rw [compTerms_temp, ← declared_corrected C d1 d2 (fun h => (compTerms_of_ge h).1)
      (fun hl hu => (compTerms_of_first hl hu).1) (y := 0) fun h => by rw [(compTerms_of_both h).1, add_zero]]
    simp [temp, hfirst, htemp1, t2, hdT64, declared_t2, setWidth_ofInt]
  have hoff : off = BitVec.ofInt 64 (compTerms C d1 d2).off := by
    rw [compTerms_off, ← declared_corrected C d1 d2 (fun h => (compTerms_of_ge h).2.1)
      (fun hl hu => (compTerms_of_first hl hu).2.1) fun h => (compTerms_of_both h).2.1]
    simp only [off, off2', hfirst, hsecond, off1, c64, hdT64, declared_off1, off2, hbelow, hoff2, hfarBelow, hoffFar]
  have hsens : sens = BitVec.ofInt 64 (compTerms C d1 d2).sens := by
    rw [compTerms_sens, ← declared_corrected C d1 d2 (fun h => (compTerms_of_ge h).2.2)
      (fun hl hu => (compTerms_of_first hl hu).2.2) fun h => (compTerms_of_both h).2.2]
    simp only [sens, sens2', hfirst, hsecond, sens1, c64, hdT64, declared_sens1, sens2, hbelow, hsens2, hfarBelow,
      hsensFar]
  obtain ⟨hdiff, hp⟩ := declared_p C d1 d2
  rw [htemp, hoff, hsens, hdiff, hp]

end Declared

/-- Settles O19: the declared widths give the integers' patterns, and both results fit them. -/
theorem declaredWidthsNeverOverflow : Obligations.DeclaredWidthsNeverOverflow := by
  intro C d1 d2
  have hp := compTerms_p_natAbs_lt C d1 d2
  rw [compensateDeclared_eq]
  exact ⟨(toInt_ofInt_compensate C d1 d2).1, FitsS64.toInt_ofInt (by unfold FitsS64; omega)⟩

/-! ### What a conversion depends on (R126, R136) -/

theorem compensate_congr {C D : CoefTable} (h : ∀ i : Fin 7, i ≠ 0 → C[i] = D[i]) (d1 d2 : Count) :
    compensate C d1 d2 = compensate D d1 d2 := by
  have h1 : C[1] = D[1] := h 1 (by decide)
  have h2 : C[2] = D[2] := h 2 (by decide)
  have h3 : C[3] = D[3] := h 3 (by decide)
  have h4 : C[4] = D[4] := h 4 (by decide)
  have h5 : C[5] = D[5] := h 5 (by decide)
  have h6 : C[6] = D[6] := h 6 (by decide)
  simp only [compensate, compTerms, h1, h2, h3, h4, h5, h6]

/-- Settles O21: the results by the polynomial's own inputs, and PT_CONVERT twice. -/
theorem conversionIsPure : Obligations.ConversionIsPure := by
  refine ⟨fun s₁ s₂ hC h1 h2 hv₁ hv₂ => ?_, fun s => exec_again (i := .ptConvert) (fun _ _ => nofun) s⟩
  refine ⟨_, _, exec_ptConvert_of_valid hv₁, exec_ptConvert_of_valid hv₂, ?_⟩
  rw [h1, h2, compensate_congr hC]
  exact ⟨rfl, rfl, rfl, rfl⟩

end Sys2Proof.Machine
end

section
/-!
PROOFS. Binary32 (00_scope.md R13): the fields and the value of a pattern, the rounding of a quotient to the nearest value with
ties to even, the range of what the block rounds, and the baselines and altitudes that rest on it (43_altitude.md R151, R152).
-/

namespace Sys2Proof.Machine

/-! ### The pattern of a sign and a magnitude -/

/-- The pattern with sign `s` whose bits 30:0 are the number `X`. -/
def signedPattern (s : Bool) (X : Nat) : Word := BitVec.ofBool s ++ BitVec.ofNat 31 X

theorem f32_eq_signedPattern (n : Int) (d : Nat) : f32 n d = signedPattern (decide (n < 0)) (f32Magnitude n.natAbs d) :=
  rfl

theorem signedPattern_msb (s : Bool) (X : Nat) : (signedPattern s X).msb = s := by
  rw [signedPattern, BitVec.msb_append]
  simp

section Fields

variable (s : Bool) {X : Nat} (hX : X < 2 ^ 31)
include hX

theorem expField_signedPattern : (expField (signedPattern s X)).toNat = X / 2 ^ 23 := by
  rw [expField, signedPattern, BitVec.extractLsb'_append_eq_of_add_le (by decide), BitVec.extractLsb'_toNat,
    BitVec.toNat_ofNat, Nat.mod_eq_of_lt hX, Nat.shiftRight_eq_div_pow]
  omega

theorem fracField_signedPattern : (fracField (signedPattern s X)).toNat = X % 2 ^ 23 := by
  rw [fracField, signedPattern, BitVec.extractLsb'_append_eq_of_add_le (by decide), BitVec.extractLsb'_toNat,
    BitVec.toNat_ofNat, Nat.mod_eq_of_lt hX, Nat.shiftRight_zero]

theorem expField_signedPattern_eq_zero_iff : expField (signedPattern s X) = 0 ↔ X < 2 ^ 23 := by
  have h0 : (0 : BitVec 8).toNat = 0 := rfl
  rw [← BitVec.toNat_inj, expField_signedPattern s hX, h0]
  omega

theorem significand_signedPattern :
    significand (signedPattern s X) = if X < 2 ^ 23 then X % 2 ^ 23 else 2 ^ 23 + X % 2 ^ 23 := by
  simp only [significand, expField_signedPattern_eq_zero_iff s hX, fracField_signedPattern s hX]

theorem isFinite32_signedPattern : isFinite32 (signedPattern s X) = true ↔ X < 0x7F800000 := by
  rw [isFinite32, bne_iff_ne, ne_eq, ← BitVec.toNat_inj, expField_signedPattern s hX]
  have h255 : (0xFF : BitVec 8).toNat = 255 := rfl
  omega

end Fields

/-- The unit in the last place of the finite patterns whose biased exponent is `k + 1`, or 0 where `k` is 0. -/
def ulp (k : Nat) : ℚ := 2 ^ k / 2 ^ 149

theorem ulp_pos (k : Nat) : 0 < ulp k := by unfold ulp; positivity

theorem ulp_add (k j : Nat) : ulp (k + j) = 2 ^ j * ulp k := by unfold ulp; ring

/-- Exponent and significand side by side: a carry out of a significand of 2^24 goes into the exponent. -/
theorem significand_signedPattern_add (s : Bool) {k m : Nat} (hm : m ≤ 2 ^ 24) (hk : k = 0 ∨ 2 ^ 23 ≤ m)
    (hX : k * 2 ^ 23 + m < 0x7F800000) :
    (significand (signedPattern s (k * 2 ^ 23 + m)) * 2 ^ max (expField (signedPattern s (k * 2 ^ 23 + m))).toNat 1 =
      m * 2 ^ (k + 1)) ∧
    (m % 2 = 0 → significand (signedPattern s (k * 2 ^ 23 + m)) % 2 = 0) := by
  have hX' : k * 2 ^ 23 + m < 2 ^ 31 := by omega
  rw [significand_signedPattern s hX', expField_signedPattern s hX']
  obtain h | h | h : m < 2 ^ 23 ∨ (2 ^ 23 ≤ m ∧ m < 2 ^ 24) ∨ m = 2 ^ 24 := by omega
  · obtain rfl : k = 0 := by omega
    rw [if_pos (by omega), show max ((0 * 2 ^ 23 + m) / 2 ^ 23) 1 = 0 + 1 by omega,
      show (0 * 2 ^ 23 + m) % 2 ^ 23 = m by omega]
    exact ⟨rfl, id⟩
  · rw [if_neg (by omega), show max ((k * 2 ^ 23 + m) / 2 ^ 23) 1 = k + 1 by omega,
      show 2 ^ 23 + (k * 2 ^ 23 + m) % 2 ^ 23 = m by omega]
    exact ⟨rfl, id⟩
  · subst h
    rw [if_neg (by omega), show max ((k * 2 ^ 23 + 2 ^ 24) / 2 ^ 23) 1 = k + 2 by omega,
      show (k * 2 ^ 23 + 2 ^ 24) % 2 ^ 23 = 0 by omega]
    exact ⟨by ring, fun _ => by norm_num⟩

theorem val32_signedPattern (s : Bool) {k m : Nat} (hm : m ≤ 2 ^ 24) (hk : k = 0 ∨ 2 ^ 23 ≤ m)
    (hX : k * 2 ^ 23 + m < 0x7F800000) :
    val32 (signedPattern s (k * 2 ^ 23 + m)) = some (if s then -(m * ulp k) else m * ulp k) := by
  have hX' : k * 2 ^ 23 + m < 2 ^ 31 := by omega
  have hval : ((m * 2 ^ (k + 1) : Nat) : ℚ) / (2 ^ 150 : Nat) = m * ulp k := by
    unfold ulp
    push_cast
    ring
  rw [val32, if_pos ((isFinite32_signedPattern s hX').2 hX), (significand_signedPattern_add s hm hk hX).1, hval,
    signedPattern_msb]

/-! ### The values of finite patterns on the grid of one unit -/

/-- A multiple of the unit of `k`, or below the range in which that unit is the last place's. -/
def OnGridOrBelow (k : Nat) (w : ℚ) : Prop := (∃ j : Int, w = j * ulp k) ∨ (k ≠ 0 ∧ |w| < 2 ^ 23 * ulp k)

theorem OnGridOrBelow.neg {k : Nat} {w : ℚ} (h : OnGridOrBelow k w) : OnGridOrBelow k (-w) := by
  obtain ⟨j, rfl⟩ | ⟨hk, hw⟩ := h
  · exact .inl ⟨-j, by push_cast; ring⟩
  · exact .inr ⟨hk, by rwa [abs_neg]⟩

theorem significand_lt (x : Word) : significand x < 2 ^ 24 := by
  have h := (fracField x).isLt
  unfold significand
  split <;> omega

theorem significand_mul_onGridOrBelow (k : Nat) {g E : Nat} (hg : g < 2 ^ 24) (hE : 1 ≤ E) :
    OnGridOrBelow k ((g * 2 ^ E : Nat) / (2 ^ 150 : Nat)) := by
  obtain ⟨j, rfl⟩ := Nat.exists_eq_add_of_le' hE
  have hval : ((g * 2 ^ (j + 1) : Nat) : ℚ) / (2 ^ 150 : Nat) = g * ulp j := by
    unfold ulp
    push_cast
    ring
  rw [hval]
  obtain h | h := le_or_gt k j
  · obtain ⟨i, rfl⟩ := Nat.exists_eq_add_of_le h
    exact .inl ⟨g * 2 ^ i, by rw [ulp_add]; push_cast; ring⟩
  · obtain ⟨i, rfl⟩ := Nat.exists_eq_add_of_lt h
    refine .inr ⟨by omega, ?_⟩
    have hg' : (g : ℚ) < 2 ^ 24 := by exact_mod_cast hg
    have hi : (1 : ℚ) ≤ 2 ^ i := one_le_pow₀ (by norm_num)
    have hu := ulp_pos j
    rw [abs_of_nonneg (by positivity), add_assoc, ulp_add]
    calc g * ulp j < 2 ^ 24 * ulp j := mul_lt_mul_of_pos_right hg' hu
      _ ≤ 2 ^ 24 * ulp j * 2 ^ i := le_mul_of_one_le_right (by positivity) hi
      _ = 2 ^ 23 * (2 ^ (i + 1) * ulp j) := by ring

theorem val32_onGridOrBelow {x : Word} {w : ℚ} (h : val32 x = some w) (k : Nat) : OnGridOrBelow k w := by
  have hgrid := significand_mul_onGridOrBelow k (significand_lt x) (le_max_right (expField x).toNat 1)
  unfold val32 at h
  split at h
  · obtain rfl := Option.some.inj h
    split
    · exact hgrid.neg
    · exact hgrid
  · cases h

/-! ### Rounding to a whole number of units -/

theorem roundDivEven_le {a b M : Nat} (hb : 0 < b) (h : a ≤ M * b) : roundDivEven a b ≤ M := by
  obtain ⟨hle, -, -⟩ := roundDivEven_spec a b hb
  by_contra hc
  have : (M + 1) * b ≤ roundDivEven a b * b := Nat.mul_le_mul_right b (by omega)
  have hs : (M + 1) * b = M * b + b := by ring
  omega

theorem le_roundDivEven {a b M : Nat} (hb : 0 < b) (h : M * b ≤ a) : M ≤ roundDivEven a b := by
  obtain ⟨-, hle, -⟩ := roundDivEven_spec a b hb
  by_contra hc
  have : (roundDivEven a b + 1) * b ≤ M * b := Nat.mul_le_mul_right b (by omega)
  have hs : (roundDivEven a b + 1) * b = roundDivEven a b * b + b := by ring
  omega

/-- The rounded quotient is within a half, and even where it is exactly a half away. -/
theorem abs_roundDivEven_sub_le (a b : Nat) (hb : 0 < b) :
    |(roundDivEven a b : ℚ) - a / b| ≤ 1 / 2 ∧ (|(roundDivEven a b : ℚ) - a / b| = 1 / 2 → roundDivEven a b % 2 = 0) := by
  obtain ⟨hu, hl, heven⟩ := roundDivEven_spec a b hb
  have hb' : (0 : ℚ) < b := by exact_mod_cast hb
  have hdiff : (roundDivEven a b : ℚ) - a / b = (roundDivEven a b * b - a) / b := by field_simp
  have hu' : 2 * ((roundDivEven a b : ℚ) * b) ≤ 2 * a + b := by exact_mod_cast hu
  have hl' : (2 * a : ℚ) ≤ 2 * (roundDivEven a b * b) + b := by exact_mod_cast hl
  rw [hdiff, abs_div, abs_of_pos hb', div_le_iff₀ hb', div_eq_iff hb'.ne']
  refine ⟨by rw [abs_le]; constructor <;> linarith, fun h => heven ?_⟩
  obtain h | h := abs_eq (by positivity : (0 : ℚ) ≤ 1 / 2 * b) |>.1 h
  · right; exact_mod_cast (by linarith : 2 * ((roundDivEven a b : ℚ) * b) = 2 * a + b)
  · left; exact_mod_cast (by linarith : (2 * a : ℚ) = 2 * (roundDivEven a b * b) + b)

/-- No whole number is nearer the quotient than the rounded one, and another as near leaves it even. -/
theorem roundDivEven_nearest (a b : Nat) (hb : 0 < b) (j : Int) :
    |(roundDivEven a b : ℚ) - a / b| ≤ |(j : ℚ) - a / b| ∧
      (|(roundDivEven a b : ℚ) - a / b| = |(j : ℚ) - a / b| → j ≠ roundDivEven a b → roundDivEven a b % 2 = 0) := by
  obtain ⟨hhalf, heven⟩ := abs_roundDivEven_sub_le a b hb
  by_cases hj : j = roundDivEven a b
  · subst hj
    exact ⟨by rw [Int.cast_natCast], fun _ h => absurd rfl h⟩
  · have hone : (1 : ℚ) ≤ |(j : ℚ) - roundDivEven a b| := by
      exact_mod_cast Int.one_le_abs (sub_ne_zero.2 hj)
    have htri := abs_sub_le (j : ℚ) (a / b) (roundDivEven a b)
    rw [abs_sub_comm (a / b : ℚ)] at htri
    exact ⟨by linarith, fun h _ => heven (by linarith)⟩

/-! ### The rounding of a magnitude -/

/-- What `f32Magnitude` makes of a nonzero quotient in range: a unit, the quotient in that unit as `a / b`, and the
exponent and significand that hold it rounded. -/
structure Rounding (N d k a b : Nat) : Prop where
  pos : 0 < b
  quotient_eq : (N : ℚ) / d = a / b * ulp k
  magnitude_eq : f32Magnitude N d = k * 2 ^ 23 + roundDivEven a b
  finite : k * 2 ^ 23 + roundDivEven a b < 0x7F800000
  le : roundDivEven a b ≤ 2 ^ 24
  normal : k = 0 ∨ 2 ^ 23 ≤ roundDivEven a b
  above : k ≠ 0 → 2 ^ 23 * ulp k ≤ (N : ℚ) / d

/-- The scaled quotient that `f32Magnitude` rounds. -/
theorem scaled_quotient (N d : Nat) (i : Int) :
    ((N * 2 ^ i.toNat : Nat) : ℚ) / (d * 2 ^ (-i).toNat : Nat) = N / d * 2 ^ i := by
  obtain ⟨n, rfl | rfl⟩ := Int.eq_nat_or_neg i
  · simp [div_eq_mul_inv]
    ring
  · simp [div_eq_mul_inv]
    ring

theorem ulp_eq_zpow (k : Nat) : ulp k = 2 ^ ((k : Int) - 149) := by
  rw [ulp, zpow_sub₀ two_ne_zero, zpow_natCast]
  rfl

/-- Before the cap at the infinity pattern: the quotient in units is below 2^24, and from 2^23 up but for subnormals. -/
theorem exists_scaling {N d : Nat} (hN : 0 < N) (hd : 0 < d) :
    ∃ k a b : Nat, 0 < b ∧ (N : ℚ) / d = a / b * ulp k ∧
      f32Magnitude N d = min (k * 2 ^ 23 + roundDivEven a b) 0x7F800000 ∧
      (a : ℚ) / b < 2 ^ 24 ∧ (k ≠ 0 → 2 ^ 23 ≤ (a : ℚ) / b) := by
  obtain ⟨hlow, hhigh⟩ := floorLog2_spec N d hN hd
  obtain ⟨k, hk⟩ : ∃ k : Nat, max (floorLog2 N d) (-126) = (k : Int) - 126 :=
    ⟨(max (floorLog2 N d) (-126) + 126).toNat, by omega⟩
  have hscale : ∀ x : ℚ, x * 2 ^ (23 - ((k : Int) - 126)) * ulp k = x := by
    intro x
    rw [ulp_eq_zpow, mul_assoc, ← zpow_add₀ two_ne_zero, show 23 - ((k : Int) - 126) + (k - 149) = 0 by omega,
      zpow_zero, mul_one]
  refine ⟨k, N * 2 ^ (23 - ((k : Int) - 126)).toNat, d * 2 ^ (-(23 - ((k : Int) - 126))).toNat, by positivity,
    by rw [scaled_quotient, hscale], ?_, ?_, fun hk0 => ?_⟩
  · have hexp : ((k : Int) - 126 + 126).toNat = k := by omega
    rw [f32Magnitude, if_neg hN.ne', hk]
    dsimp only
    rw [hexp]
  · rw [scaled_quotient]
    calc (N : ℚ) / d * 2 ^ (23 - ((k : Int) - 126))
        < 2 ^ (floorLog2 N d + 1) * 2 ^ (23 - ((k : Int) - 126)) := mul_lt_mul_of_pos_right hhigh (by positivity)
      _ = 2 ^ (floorLog2 N d + 1 + (23 - ((k : Int) - 126))) := (zpow_add₀ two_ne_zero _ _).symm
      _ ≤ 2 ^ (24 : Int) := zpow_le_zpow_right₀ (by norm_num) (by omega)
      _ = 2 ^ 24 := by norm_num
  · rw [scaled_quotient]
    calc (2 : ℚ) ^ 23 = 2 ^ (floorLog2 N d + (23 - ((k : Int) - 126))) := by
          rw [show floorLog2 N d + (23 - ((k : Int) - 126)) = (23 : Nat) by omega, zpow_natCast]
      _ = 2 ^ floorLog2 N d * 2 ^ (23 - ((k : Int) - 126)) := zpow_add₀ two_ne_zero _ _
      _ ≤ (N : ℚ) / d * 2 ^ (23 - ((k : Int) - 126)) := mul_le_mul_of_nonneg_right hlow (by positivity)

theorem ulp_253 : ulp 253 = 2 ^ 104 := by norm_num [ulp]

theorem exists_rounding {N d : Nat} (hN : 0 < N) (hd : 0 < d) (hmax : (N : ℚ) / d ≤ maxFinite32) :
    ∃ k a b, Rounding N d k a b := by
  obtain ⟨k, a, b, hb, hq, hmag, hlt, hge⟩ := exists_scaling hN hd
  have hb' : (0 : ℚ) < b := by exact_mod_cast hb
  have hle : roundDivEven a b ≤ 2 ^ 24 :=
    roundDivEven_le hb (by rw [div_lt_iff₀ hb'] at hlt; exact_mod_cast hlt.le)
  have habove : k ≠ 0 → 2 ^ 23 * ulp k ≤ (N : ℚ) / d := fun hk =>
    hq ▸ mul_le_mul_of_nonneg_right (hge hk) (ulp_pos k).le
  have hfinite : k * 2 ^ 23 + roundDivEven a b < 0x7F800000 := by
    by_contra hover
    have hbig := habove (by omega)
    obtain hk | hk : k = 253 ∨ 254 ≤ k := by omega
    · subst hk
      rw [hq, ulp_253, maxFinite32, mul_le_mul_iff_left₀ (by positivity), div_le_iff₀ hb'] at hmax
      have hM : a ≤ (2 ^ 24 - 1) * b := by
        rw [← Nat.cast_le (α := ℚ), Nat.cast_mul, Nat.cast_sub (by norm_num)]
        exact_mod_cast hmax
      have := roundDivEven_le hb hM
      omega
    · obtain ⟨j, rfl⟩ := Nat.exists_eq_add_of_le hk
      have hj : (1 : ℚ) ≤ 2 ^ j := one_le_pow₀ (by norm_num)
      rw [show 254 + j = 253 + (j + 1) by omega, ulp_add, ulp_253] at hbig
      rw [maxFinite32] at hmax
      have : (2 : ℚ) ^ (j + 1) = 2 * 2 ^ j := pow_succ' 2 j
      nlinarith
  refine ⟨k, a, b, hb, hq, hmag.trans (min_eq_left hfinite.le), hfinite, hle, ?_, habove⟩
  by_cases hk : k = 0
  · exact .inl hk
  · have h23 := hge hk
    rw [le_div_iff₀ hb'] at h23
    exact .inr (le_roundDivEven hb (by exact_mod_cast h23))

section Nearest

variable {N d k a b : Nat} (h : Rounding N d k a b)
include h

/-- No value on the grid, and none below it, is nearer the quotient than the rounded one. -/
theorem Rounding.nearest {w : ℚ} (hw : OnGridOrBelow k w) :
    |roundDivEven a b * ulp k - (N : ℚ) / d| ≤ |w - N / d| ∧
      (|roundDivEven a b * ulp k - (N : ℚ) / d| = |w - N / d| → w ≠ roundDivEven a b * ulp k →
        roundDivEven a b % 2 = 0) := by
  have hu := ulp_pos k
  have units : ∀ x : ℚ, |x * ulp k - N / d| = |x - a / b| * ulp k := fun x => by
    rw [h.quotient_eq, ← sub_mul, abs_mul, abs_of_pos hu]
  obtain ⟨j, rfl⟩ | ⟨hk, hbelow⟩ := hw
  · obtain ⟨hle, heven⟩ := roundDivEven_nearest a b h.pos j
    rw [units, units]
    refine ⟨mul_le_mul_of_nonneg_right hle hu.le, fun heq hne => heven (mul_right_cancel₀ hu.ne' heq) ?_⟩
    rintro rfl
    exact hne (by rw [Int.cast_natCast])
  · obtain ⟨hle, -⟩ := roundDivEven_nearest a b h.pos (2 ^ 23)
    have habove := h.above hk
    have hlt : |roundDivEven a b * ulp k - (N : ℚ) / d| < |w - N / d| :=
      calc |roundDivEven a b * ulp k - (N : ℚ) / d|
          ≤ |((2 ^ 23 : Int) : ℚ) * ulp k - N / d| := by
            rw [units, units]; exact mul_le_mul_of_nonneg_right hle hu.le
        _ = N / d - 2 ^ 23 * ulp k := by
            have hcast : ((2 ^ 23 : Int) : ℚ) = 2 ^ 23 := by norm_num
            rw [hcast, abs_sub_comm, abs_of_nonneg (sub_nonneg.2 habove)]
        _ < N / d - w := by linarith [lt_of_abs_lt hbelow]
        _ ≤ |w - N / d| := by rw [abs_sub_comm]; exact le_abs_self _
    exact ⟨hlt.le, fun heq _ => absurd heq hlt.ne⟩

theorem Rounding.val32 (s : Bool) : val32 (signedPattern s (f32Magnitude N d)) =
    some (if s then -(roundDivEven a b * ulp k) else roundDivEven a b * ulp k) := by
  rw [h.magnitude_eq]
  exact val32_signedPattern s h.le h.normal h.finite

theorem Rounding.even (s : Bool) (he : roundDivEven a b % 2 = 0) :
    significand (signedPattern s (f32Magnitude N d)) % 2 = 0 := by
  rw [h.magnitude_eq]
  exact (significand_signedPattern_add s h.le h.normal h.finite).2 he

end Nearest

theorem quotient_eq_ite (n : Int) (d : Nat) :
    quotient n d = if n < 0 then -((n.natAbs : ℚ) / d) else (n.natAbs : ℚ) / d := by
  have hn : (n.natAbs : ℚ) = |(n : ℚ)| := by rw [Nat.cast_natAbs, Int.cast_abs]
  rw [hn, quotient]
  split
  next h => rw [abs_of_neg (by exact_mod_cast h), neg_div, neg_neg]
  next h => rw [abs_of_nonneg (by exact_mod_cast not_lt.1 h)]

theorem abs_quotient (n : Int) (d : Nat) : |quotient n d| = (n.natAbs : ℚ) / d := by
  rw [quotient, abs_div, abs_of_nonneg (a := (d : ℚ)) (Nat.cast_nonneg d), Nat.cast_natAbs, Int.cast_abs]

theorem val32_zero : val32 0 = some 0 := by decide +kernel

/-- Settles O22: the magnitude is rounded to the nearest unit, and the sign carries over to every other value. -/
theorem f32RoundsToNearestTiesToEven : Obligations.F32RoundsToNearestTiesToEven := by
  refine ⟨fun n d hd hmax => ?_, f32_zero⟩
  by_cases hn : n = 0
  · subst hn
    refine ⟨0, by rw [f32_zero, val32_zero], fun x w _ => ?_⟩
    have hq : quotient 0 d = 0 := by simp [quotient]
    simp only [hq, sub_zero, abs_zero]
    exact ⟨abs_nonneg w, fun h hw => absurd (abs_eq_zero.1 h.symm) hw⟩
  · obtain ⟨k, a, b, h⟩ := exists_rounding (Int.natAbs_pos.2 hn) hd (abs_quotient n d ▸ hmax)
    rw [f32_eq_signedPattern, quotient_eq_ite]
    refine ⟨_, h.val32 _, fun x w hw => ?_⟩
    have hgrid := val32_onGridOrBelow hw k
    by_cases hs : n < 0
    · have mirror : ∀ y : ℚ, |y - -((n.natAbs : ℚ) / d)| = |-y - (n.natAbs : ℚ) / d| := fun y => by
        rw [← abs_neg]; congr 1; ring
      obtain ⟨hle, heven⟩ := h.nearest hgrid.neg
      simp only [hs, decide_true, if_true, mirror, neg_neg]
      exact ⟨hle, fun heq hne => h.even _ (heven heq fun hw => hne (by rw [← hw, neg_neg]))⟩
    · obtain ⟨hle, heven⟩ := h.nearest hgrid
      simp only [hs, decide_false, if_false, Bool.false_eq_true]
      exact ⟨hle, fun heq hne => h.even _ (heven heq hne)⟩

/-! ### The range of what the block rounds (R13) -/

/-- A quotient of at least 2^−126 is rounded to a normal number. -/
theorem Rounding.normal_of_le {N d k a b : Nat} (h : Rounding N d k a b) (hq : 2 ^ 23 * ulp 0 ≤ (N : ℚ) / d) :
    2 ^ 23 ≤ k * 2 ^ 23 + roundDivEven a b := by
  obtain hk | hk := Nat.eq_zero_or_pos k
  · subst hk
    have hb : (0 : ℚ) < b := by exact_mod_cast h.pos
    rw [h.quotient_eq, mul_le_mul_iff_left₀ (ulp_pos 0), le_div_iff₀ hb] at hq
    have := le_roundDivEven h.pos (by exact_mod_cast hq : 2 ^ 23 * b ≤ a)
    omega
  · omega

/-- Settles O23: such a quotient lies between 2^−17 and 2^26, well inside the normal numbers. -/
theorem roundedResultsAreNormalOrZero : Obligations.RoundedResultsAreNormalOrZero := by
  intro n d hn hd
  refine ⟨fun h0 => by rw [h0, f32_zero], fun h0 => ?_⟩
  have hN : (1 : ℚ) ≤ n.natAbs := by exact_mod_cast Int.natAbs_pos.2 h0
  have hN' : (n.natAbs : ℚ) ≤ 2 ^ 26 := by exact_mod_cast hn.le
  have hd1 : (1 : ℚ) ≤ d := by obtain rfl | rfl := hd <;> norm_num
  have hd2 : (d : ℚ) ≤ 65535 := by obtain rfl | rfl := hd <;> norm_num
  have hd0 : 0 < d := by omega
  have hmax : (n.natAbs : ℚ) / d ≤ maxFinite32 := by
    rw [div_le_iff₀ (by linarith), maxFinite32]
    linarith
  have hmin : 2 ^ 23 * ulp 0 ≤ (n.natAbs : ℚ) / d := by
    have htiny : 2 ^ 23 * ulp 0 * 65535 ≤ 1 := by norm_num [ulp]
    rw [le_div_iff₀ (by linarith)]
    have hu := ulp_pos 0
    nlinarith
  obtain ⟨k, a, b, h⟩ := exists_rounding (Int.natAbs_pos.2 h0) hd0 hmax
  have hlow := h.normal_of_le hmin
  have hhigh := h.finite
  have hX : k * 2 ^ 23 + roundDivEven a b < 2 ^ 31 := by omega
  rw [f32_eq_signedPattern, h.magnitude_eq]
  refine ⟨fun he => ?_, ?_⟩
  · have := (expField_signedPattern_eq_zero_iff _ hX).1 he
    omega
  · have := (isFinite32_signedPattern (decide (n < 0)) hX).2 hhigh
    simpa [isFinite32] using this

/-! ### Baselines and the altitude of a baseline against itself (R151, R152) -/

theorem eq_signedPattern (b : Word) : b = signedPattern b.msb (b.extractLsb' 0 31).toNat := by
  have hmsb : BitVec.ofBool b.msb = b.extractLsb' 31 1 := by
    ext i hi
    obtain rfl : i = 0 := by omega
    simp [BitVec.msb_eq_getLsbD_last]
  rw [signedPattern, BitVec.ofNat_toNat, BitVec.setWidth_eq, hmsb,
    BitVec.extractLsb'_append_extractLsb'_eq_extractLsb' (by decide)]
  exact BitVec.extractLsb'_eq_self.symm

theorem significand_pos_iff (b : Word) : 0 < significand b ↔ b.extractLsb' 0 31 ≠ 0 := by
  have hX : (b.extractLsb' 0 31).toNat < 2 ^ 31 := (b.extractLsb' 0 31).isLt
  have h0 : (0 : BitVec 31).toNat = 0 := rfl
  rw [eq_signedPattern b, significand_signedPattern b.msb hX, ← eq_signedPattern, ne_eq, ← BitVec.toNat_inj, h0]
  split <;> omega

/-- A finite pattern's value is its magnitude with its sign, and the magnitude is 0 exactly where bits 30:0 are. -/
theorem val32_eq_some {b : Word} {v : ℚ} (h : val32 b = some v) :
    isFinite32 b = true ∧ ∃ x : ℚ, 0 ≤ x ∧ (x ≠ 0 ↔ b.extractLsb' 0 31 ≠ 0) ∧ v = if b.msb then -x else x := by
  unfold val32 at h
  split at h
  next hf =>
    refine ⟨hf, _, by positivity, ?_, (Option.some.inj h).symm⟩
    rw [← significand_pos_iff, Nat.pos_iff_ne_zero]
    simp
  next => cases h

theorem val32_of_finite {b : Word} (h : isFinite32 b = true) : ∃ v, val32 b = some v := ⟨_, if_pos h⟩

theorem admissible_iff (b : Word) :
    admissible b = true ↔ b.msb = false ∧ isFinite32 b = true ∧ b.extractLsb' 0 31 ≠ 0 := by
  simp [admissible, and_assoc]

theorem admissible_iff_val32_pos (b : Word) : admissible b = true ↔ ∃ v, val32 b = some v ∧ 0 < v := by
  rw [admissible_iff]
  constructor
  · rintro ⟨hm, hf, hz⟩
    obtain ⟨v, hv⟩ := val32_of_finite hf
    obtain ⟨-, x, hx, hx0, rfl⟩ := val32_eq_some hv
    exact ⟨_, hv, by simpa [hm] using lt_of_le_of_ne hx (hx0.2 hz).symm⟩
  · rintro ⟨v, hv, hpos⟩
    obtain ⟨hf, x, hx, hx0, rfl⟩ := val32_eq_some hv
    cases hm : b.msb
    · rw [hm] at hpos
      exact ⟨rfl, hf, hx0.1 (by simpa using hpos.ne')⟩
    · simp [hm] at hpos
      linarith

/-- Settles O24: by the sign, the exponent and the magnitude, and the six patterns R152 names. -/
theorem admissibleIffFinitePositive : Obligations.AdmissibleIffFinitePositive := by
  refine ⟨admissible_iff_val32_pos, fun b => ?_, by decide, by decide, by decide, by decide, by decide, by decide⟩
  rw [admissible_iff, BitVec.msb_eq_getLsbD_last, isFinite32, bne_iff_ne]
  rfl

/-- Settles O25: AF1 gives +0.0, whose value is 0, and the real formula is 0 where its quotient is 1. -/
theorem altFnOfBaselineIsZero : Obligations.AltFnOfBaselineIsZero := by
  intro b v hv hv0
  obtain ⟨hf, x, -, hx0, rfl⟩ := val32_eq_some hv
  have hx : x ≠ 0 := by
    rintro rfl
    simp at hv0
  have hself : altFn b b = 0 := altFn_self b hf (hx0.1 hx)
  refine ⟨hself, by rw [hself, val32_zero], ?_⟩
  rw [refAltitude, div_self (by exact_mod_cast hv0), Real.one_rpow, sub_self, mul_zero]

end Sys2Proof.Machine
end

section
/-!
PROOFS. The decoder's values and checks (44_humidity.md): the clamp thresholds, the patterns at the ends of both ranges, and the
frame with an altered checksum byte.
-/

namespace Sys2Proof.Machine

/-! ### The ranges and the clamp (R168) -/

theorem htTempNumerator_natAbs_of_ne {raw : Nat} (h : raw ≠ 16852) : 25 < (htTempNumerator raw).natAbs := by
  rw [htTempNumerator]
  omega

theorem htTempNumerator_ne_zero (raw : Nat) : htTempNumerator raw ≠ 0 := by
  rw [htTempNumerator]
  omega

theorem htHumNumerator_eq_zero_iff (raw : Nat) : htHumNumerator raw = 0 ↔ raw ≤ 3145 := by
  rw [htHumNumerator]
  omega

theorem htHumNumerator_eq_max_iff (raw : Nat) : htHumNumerator raw = 6553500 ↔ 55574 ≤ raw := by
  rw [htHumNumerator]
  omega

/-- Settles O30: both ranges, and the thresholds between which the humidity is not clamped. -/
theorem clampThresholds : Obligations.ClampThresholds := by
  intro raw hraw
  obtain ⟨hTl, hTu⟩ := htTempNumerator_bounds hraw
  obtain ⟨hHl, hHu⟩ := htHumNumerator_bounds raw
  exact ⟨hTl, hTu, htTempNumerator_ne_zero raw, by decide, htTempNumerator_natAbs_of_ne, by omega,
    htHumNumerator_eq_zero_iff raw, by omega, htHumNumerator_eq_max_iff raw, by omega, by omega, hHl, hHu⟩

/-! ### The patterns at the ends (R169) -/

/-- 100.0, −45.0 and 130.0. -/
theorem f32_end_points : f32 6553500 65535 = 0x42C80000 ∧ f32 (htTempNumerator 0) 65535 = 0xC2340000 ∧
    f32 (htTempNumerator 65535) 65535 = 0x43020000 := by decide +kernel

/-- Settles O31: a clamped humidity has one numerator, so one pattern. -/
theorem decodedEndPoints : Obligations.DecodedEndPoints := by
  obtain ⟨hmax, hlow, hhigh⟩ := f32_end_points
  refine ⟨fun raw h => ?_, fun raw h => ?_, hlow, hhigh⟩
  · rw [(htHumNumerator_eq_zero_iff raw).2 h, f32_zero]
  · rw [(htHumNumerator_eq_max_iff raw).2 h, hmax]

/-! ### An altered checksum byte (R163) -/

theorem crc8Temp_set_checksum (f : Frame) (x : Byte) : crc8Temp (f.set 2 x) = crc8Temp f := by
  simp [crc8Temp]

theorem crc8Hum_set_checksum (f : Frame) (x : Byte) : crc8Hum (f.set 5 x) = crc8Hum f := by
  simp [crc8Hum]

/-- A frame that fails is reported, and no result is written. -/
theorem exec_htDecode_of_fail {s : State} (h : ¬FramePasses s.block.frame) :
    ∃ t, exec .htDecode s = .next t ∧ t.block.tCrcOk = (crc8Temp s.block.frame == s.block.frame[2]) ∧
      t.block.hCrcOk = (crc8Hum s.block.frame == s.block.frame[5]) ∧ t.block.htValid = false ∧ t.block.err = 3 ∧
      resultRegs t.block = resultRegs s.block := by
  refine ⟨_, exec_htDecode_eq s, ?_⟩
  rw [htDecode_of_fail h]
  exact ⟨rfl, rfl, rfl, rfl, rfl⟩

/-- Settles O33: the data bytes fix the checksum, so any other byte in its place fails its half. -/
theorem alteredChecksumByteIsRejected : Obligations.AlteredChecksumByteIsRejected := by
  intro s x
  refine ⟨fun hpass hx => ?_, fun hpass hx => ?_⟩
  · have hbad : crc8Temp (s.block.frame.set 2 x) ≠ (s.block.frame.set 2 x)[2] := by
      rw [crc8Temp_set_checksum, Vector.getElem_set_self]
      exact fun h => hx (h.symm.trans hpass)
    obtain ⟨t, ht, hok, -, hv, he, hr⟩ :=
      exec_htDecode_of_fail (s := { s with block := { s.block with frame := s.block.frame.set 2 x } }) fun h => hbad h.1
    exact ⟨t, ht, hok.trans (beq_false_of_ne hbad), hv, he, hr⟩
  · have hbad : crc8Hum (s.block.frame.set 5 x) ≠ (s.block.frame.set 5 x)[5] := by
      rw [crc8Hum_set_checksum, Vector.getElem_set_self]
      exact fun h => hx (h.symm.trans hpass)
    obtain ⟨t, ht, -, hok, hv, he, hr⟩ :=
      exec_htDecode_of_fail (s := { s with block := { s.block with frame := s.block.frame.set 5 x } }) fun h => hbad h.2
    exact ⟨t, ht, hok.trans (beq_false_of_ne hbad), hv, he, hr⟩

end Sys2Proof.Machine
end
